-- ==== Sys2Proof/Word.lean ====
section
/-!
DEFINITION. Sys2Proof/Word.lean: the word types of the Worsel part and the 129-bit register value (R4, R106).
-/
namespace Sys2Proof

/-- A byte. -/
abbrev Byte := BitVec 8
/-- A 32-bit word: a register of register space, an instruction word. -/
abbrev W32 := BitVec 32
/-- A 64-bit word: a cursor, an integer, a register pair. -/
abbrev W64 := BitVec 64
/-- A physical address, 44 bits (R27). -/
abbrev PAddr := BitVec 44

/-- R106: what a register holds, 128 bits and the tag. With tag 0 it is data (R107). -/
structure Capv where
  /-- Bits [127:0] of the capability layout. -/
  bits : BitVec 128
  /-- The tag. -/
  tag : Bool
deriving DecidableEq, Repr

/-- The value 0 with tag 0. -/
def Capv.zero : Capv := ⟨0, false⟩

end Sys2Proof
end

