-- ==== Sys2Proof/Syntax.lean ====
section
/-!
DEFINITION. Sys2Proof/Syntax.lean: the commands of the block, one constructor of `Instr` for each row of the command
table, in the table's order, with the row's operands. The event rows carry what the outside world brings with the
event (a reading, a level, a frame); the rows of the instruction set carry the execution context and the instruction's
fields.
-/
namespace Sys2Proof

/-- The initiator of a register access that is not an instruction of its own: a stall (number 8 × core + stall),
the debug module or the Sacristy core. -/
inductive Initiator where
  | stall (id : Fin 32)
  | debug
  | sacristy
deriving DecidableEq, Repr

/-- Access sizes in bytes that an initiator may put on a bus (R5). -/
inductive AccSize where
  | b1 | b2 | b4 | b8
deriving DecidableEq, Repr

/-- The clock islands of R599 and of "Clock islands at D0". -/
inductive Island where
  | sacristy
  | core (c : Fin 4)
  | l2
  /-- R91, R599: the lane pair island that holds the lanes of one port (0 east, 1 west). -/
  | lanePair (p : Fin 2)
  | ringSwitch
  | tenant
  | cipher
  | clerestory
  | timers
  | lsio
deriving DecidableEq, Repr

/-- The rails of R72. -/
inductive Rail where
  | vpre | vsacCore | vsacIo | strapHi
  | vbuck | vddNave | vddaSd | vddtSd | vddqPhy | vddDphy | v18Out | v33Out
  | dramVdd1 | dramVdd2h | dramVdd2l | dramVddq
deriving DecidableEq, Repr

/-- The voltage the Sacristy finds on an I/O bank (R43, R44). -/
inductive BankVolt where
  | openBank | v18 | v33
deriving DecidableEq, Repr

/-- The two lamp strings and similar pairs are numbered by `Fin 2`; a unit is its SYSCTL bit (R30). -/
abbrev UnitBit := Fin 23

/-- An execution context: stall `8 × core + stall` of the Nave for 0 to 31, the Sacristy core (M profile, R201) for 32. -/
abbrev Ctx := Fin 33
/-- A stall of the Nave, `8 × core + stall`. -/
abbrev StallId := Fin 32
/-- A 5-bit register specifier (R149, R176). -/
abbrev Reg := BitVec 5

/-- The address operand of a load or store: the offset form of R191 or the indexed form of R192. -/
inductive MemForm where
  /-- OP 0x10 to 0x1C: `ea := A.addr + IMM`. -/
  | off (imm : BitVec 16)
  /-- OP 0x1F: `ea := A.addr + (B << s)`, U the user-access bit, `hi` is FN[10:7]. -/
  | idx (b : Reg) (s : BitVec 2) (u : Bool) (hi : BitVec 4)
deriving DecidableEq, Repr

/-- What the mode registers of an LPDDR5X device report (R312, MEM_CH_STATUS_c). -/
structure DramDevice where
  /-- The capacity is 2^dens GiB; 15 for a capacity that DENS cannot give. -/
  dens : BitVec 4
  /-- Rank count: 1, 2, or 3 for more than two. -/
  ranks : BitVec 2
  /-- The width and the density of both ranks are within R312. -/
  widthOk : Bool
deriving DecidableEq, Repr

/-- An error in a store of data or tags (R307): its SOURCE code in MEM_ERR_INFO, and whether it is uncorrectable. -/
structure MemErr where
  /-- SOURCE. -/
  source : BitVec 3
  /-- Uncorrectable. -/
  ue : Bool
deriving DecidableEq, Repr

/-- A lane RL0 to RL3. -/
abbrev LaneId := Fin 4
/-- Ring 0 (clockwise, out of the east port) or ring 1. -/
abbrev RingId := Fin 2
/-- A ring port: 0 east, 1 west. -/
abbrev PortId := Fin 2

/-- A unit that has started (R33), with the outcome of its start that the Clerestory waits for. -/
structure UnitRise where
  /-- The unit, by its bit of SYSCTL_READY. -/
  unit : UnitBit
  /-- R415: the digest of the Clerestory's self-test is the known one. -/
  selfTest : Bool
deriving DecidableEq, Repr

/-- A loss of lock of a lane (R343). -/
structure LockLoss where
  /-- The lane. -/
  lane : LaneId
  /-- The cause is that the signal is gone (LOS). -/
  noSignal : Bool
deriving DecidableEq, Repr

/-- What the header of a frame says of its way (R350). -/
structure Travel where
  /-- HOPS. -/
  hops : BitVec 8
  /-- WRAPPED: it has been turned at a fold. -/
  wrapped : Bool
deriving DecidableEq, Repr

/-- What the FEC of a lane finds in a codeword (R324). -/
inductive FecResult where
  | clean | corrected | uncorrectable
deriving DecidableEq, Repr

/-- A variable frame: the header of R333 without HCRC, and the bytes from byte 16 on. -/
structure Frame where
  /-- Byte 0. -/
  dest : BitVec 8
  /-- Byte 1. -/
  src : BitVec 8
  /-- Byte 2, [2:0]: 1 CTRL, 2 FAR, 3 TEN-H, 4 TEN-L. -/
  cls : BitVec 3
  /-- Byte 3. -/
  type : BitVec 8
  /-- Bytes 4 and 5: the frame's length. -/
  length : Nat
  /-- Byte 6. -/
  hops : Nat
  /-- FLAGS[0]. -/
  wrapped : Bool
  /-- FLAGS[1]. -/
  bcast : Bool
  /-- FLAGS[2]. -/
  noid : Bool
  /-- Bytes 8 to 11. -/
  seq : BitVec 32
  /-- Bytes 12 and 13. -/
  stamp : BitVec 16
  /-- Bytes 16 to LENGTH − 1. -/
  payload : List (BitVec 8)
deriving DecidableEq, Repr

/-- A variable frame as it arrives at a ring input (R350, R353). -/
structure Arrival where
  /-- The frame. -/
  frame : Frame
  /-- The sender sent it into the wicket. -/
  wicket : Bool
deriving DecidableEq, Repr

/-- The instants of a delay exchange (R340), in 2^−6 ns. -/
structure DelayExchange where
  /-- From this end's send to its receive: the round trip. -/
  round : Nat
  /-- The far end's turnaround. -/
  far : Nat
  /-- This end's turnaround. -/
  near : Nat
deriving DecidableEq, Repr

/-- A bay marker (R330, table "Marker payload"). -/
structure Marker where
  /-- TIME. -/
  time : BitVec 64
  /-- CORR, in units of 2^−16 ns. -/
  corr : BitVec 64
  /-- GWSERIAL. -/
  gwserial : BitVec 64
  /-- HOPS. -/
  hops : BitVec 8
  /-- FLAGS: FOLDED [0], ENUMERATED [1]. -/
  flags : BitVec 8
  /-- NODES. -/
  nodes : BitVec 16
deriving DecidableEq, Repr

/-- A fairness beacon (R359): the node that is congested and its fair rate in bytes per bay per unit of weight. -/
structure Beacon where
  /-- The node C. -/
  node : BitVec 8
  /-- The rate F. -/
  rate : Nat
deriving DecidableEq, Repr

/-- A tenant port TP0 to TP3. -/
abbrev TPort := Fin 4
/-- A cipher job slot. -/
abbrev SlotId := Fin 16

/-- A CSI-2 frame of the selected channel as received (R397): its packets, and the 8-bit grey image (the demosaiced
RAW pixels or Y, R400 step 1) row by row. -/
structure CsiFrame where
  /-- Virtual channel. -/
  vc : BitVec 2
  /-- Data type. -/
  dt : BitVec 6
  /-- The frame lay between a Frame Start and a Frame End. -/
  bracketed : Bool
  /-- A packet had a CRC failure or an uncorrectable header. -/
  bad : Bool
  /-- Headers corrected. -/
  eccCorr : Nat
  /-- Further packets of the frame with uncorrectable headers, of other channels or of unsupported types. -/
  dropped : Nat
  /-- Grey pixels, one list per long packet. -/
  grey : List (List (BitVec 8))
deriving DecidableEq, Repr

/-- What the array program returns for a blob (R402): class, confidence, and a track ID or none. -/
structure BlobResult where
  /-- Class. -/
  cls : Nat
  /-- Confidence. -/
  conf : BitVec 8
  /-- The track the program names. -/
  track : Option (BitVec 32)
deriving DecidableEq, Repr

/-- How a DALI frame ends on the bus (R447). -/
inductive DaliEnd where
  /-- The frame went out whole; with ANSWER, what the window brought. -/
  | sent
  | answer (b : BitVec 8)
  | noAnswer
  | invalid
  | collision
deriving DecidableEq, Repr

/-- A flash aisle: 0 North, 1 South. -/
abbrev Aisle := Fin 2

/-- Where a staging request comes from (R510, R513): the Hatch slot that holds it, or a service UART frame with its
payload laid out as the MSG of the Hatch service and, for STAGE_WRITE, the data. -/
inductive StageSrc where
  | hatch (slot : Fin 16)
  | uart (msg : List (BitVec 8)) (data : List (BitVec 8))
deriving DecidableEq, Repr

/-- How a queued I²C command ends (R579, R580). -/
inductive I2cEnd where
  | done (rx : BitVec 8)
  | nack
  | arbLost
deriving DecidableEq, Repr

/-- The commands, one constructor per row of the command table. -/
inductive Instr where
  /-- R7: a register write by an initiator. -/
  | registerWrite (who : Initiator) (addr : BitVec 44) (size : AccSize) (data : BitVec 64)
  /-- R8: a read of a register that may hold RC fields. -/
  | rcFieldRead (who : Initiator) (addr : BitVec 44) (size : AccSize)
  /-- R6: a 32-bit read of the low word of a pair. -/
  | pairLowRead (who : Initiator) (addr : BitVec 44)
  /-- R6: a 32-bit write of the low word of a pair. -/
  | pairLowWrite (who : Initiator) (addr : BitVec 44) (data : BitVec 32)
  /-- R6: a 32-bit write of the high word of a pair. -/
  | pairHighWrite (who : Initiator) (addr : BitVec 44) (data : BitVec 32)
  /-- R6: a 64-bit write of a pair. -/
  | pairWrite64 (who : Initiator) (addr : BitVec 44) (data : BitVec 64)
  /-- R23: the oldest crossing from a stall to an island arrives, `cycles` destination cycles after it left. -/
  | islandCrossing (st : Fin 32) (dst : Island) (cycles : Nat)
  /-- R33: a unit finishes its start. -/
  | unitReadyRise (u : UnitRise)
  /-- R55: EXT_RST_N has been low for `ns` nanoseconds (a level still low counts its time so far). -/
  | extRstNAssert (ns : Nat)
  /-- R102: EXT_RST_N rises. -/
  | extRstNRelease
  /-- R68: VIN below VIN_POR. -/
  | vinPor
  /-- R68: VIN through VIN_ON. -/
  | vinOn
  /-- R68: VIN through VIN_BO, falling. -/
  | vinBo
  /-- R68: VIN through VIN_BO_CLR, rising. -/
  | vinBoClr
  /-- R68: VIN through VIN_UV, falling. -/
  | vinUv
  /-- R73: a rail leaves ±8 % of its nominal. -/
  | railOutOfRange (r : Rail)
  /-- R81 step 3: power-on reset is released with the strap balls at these levels. -/
  | powerOnResetRelease (bootsel : BitVec 2) (role : Bool) (testenN : Bool)
  /-- R81 step 4: the self-tests pass; `crystal`: the crystal is confirmed. -/
  | sacristySelfTestDone (crystal : Bool)
  /-- R82 step 5: the vigil configuration is read and the photodiode, averaged over 100 ms, stands at `pdMv`. -/
  | vigilPathArmed (pdMv : Nat)
  /-- R81 step 6, R506: bit a of `sig`: the signature of the image in aisle a verifies (R503, order 4). -/
  | sacristyFirmwareVerified (sig : BitVec 2)
  /-- R84 step 7, R506: `sig` as in `sacristyFirmwareVerified`. -/
  | naveImageVerified (sig : BitVec 2)
  /-- R74 steps 8 to 10: the rails are up, the banks A to D stand at these voltages. -/
  | naveRailsUp (a b c d : BankVolt)
  /-- R81 step 11. -/
  | nc0LeavesReset
  /-- R314: the training of a channel ends; `high`, `low`: the set points of 8533 and 4266 MT/s trained (R312); `temp`: the device
  temperature status that the mode registers give (R315). -/
  | lpddrChannelTrained (ch : Fin 2) (high low : Bool) (temp : BitVec 8)
  /-- R76: the 100 µs evaluation, with VIN at `vinMv` millivolts. -/
  | ledgerEvaluation (vinMv : Nat)
  /-- R77: the next unit in start order is admitted. -/
  | unitAdmitted
  /-- R78: the unit in its start phase leaves it. -/
  | startPhaseEnd
  /-- R78: the unit's maximum start time has passed. -/
  | unitStartTimeout (u : UnitBit)
  /-- R69: the off time and the conditions on VIN and the reference are met. -/
  | naveRailRestart
  /-- R93: the 25 MHz reference is lost. -/
  | referenceLost
  /-- R93: the reference has been good for 100 ms. -/
  | referenceRestored
  /-- R94. -/
  | srefclkLost
  /-- R94. -/
  | srefclkRecovery
  /-- R92: an island's clock has relocked. -/
  | islandClockResume (i : Island)
  /-- R97: a measurement against the source, which stands at `source`. -/
  | townTimeMeasurement (source : BitVec 64)
  /-- R98: a rising edge on PPS_IN. -/
  | ppsInEdge
  /-- R98: PPS_OUT rises. -/
  | ppsOutRise
  /-- R98: 10 ms after the last rise. -/
  | ppsOutEnd
  /-- R100: the source in use is lost. -/
  | townTimeSourceLost
  /-- R99: the once-a-second resynchronisation. -/
  | sacristyTimeResync
  /-- R97: a commit of SYSCTL_TT_SET. -/
  | ttSetWrite (value : BitVec 64)
  /-- R101: a write of SYSCTL_RESET_REQ. -/
  | sysctlResetReq (data : BitVec 32)
  /-- R105: SYSCTL_PARK bit `u` set. -/
  | unitPark (u : UnitBit)
  /-- R79: SYSCTL_PARK bit `u` cleared. -/
  | unitUnpark (u : UnitBit)
  /-- R452. -/
  | lockstepMismatch
  /-- R103: steps 4 and 6 have run; `sig` as in `sacristyFirmwareVerified`. -/
  | sacristyResetComplete (sig : BitVec 2)
  /-- R453: the watchdog expires (`outOfOrder`: its sequence was written out of order). -/
  | watchdogExpiry (outOfOrder : Bool)
  /-- R453: the firmware writes `value` to the watchdog. -/
  | watchdogRestart (value : BitVec 32)
  /-- R137: GRANT, kind-0 source. -/
  | grantIssue (st : Ctx) (d a b : Reg)
  /-- R142: GRANT, kind-4 source. -/
  | grantRevoke (st : Ctx) (d a b : Reg)
  /-- R143: GRANT.FENCE (the fields d, a, b must be 0). -/
  | grantFence (st : Ctx) (d a b : Reg)
  /-- R143: the GRANT.FENCE that holds a core completes. -/
  | grantFenceComplete (core : Fin 4)
  /-- R140: an offer arrives from a target node. -/
  | grantOfferRx (src : BitVec 8) (index : BitVec 16) (epoch gen : BitVec 8) (lenM1 : BitVec 32) (load store : Bool)
  /-- R195. -/
  | cmov (st : Ctx) (d a b : Reg)
  /-- R118. -/
  | ctag (st : Ctx) (d a b : Reg)
  /-- R121. -/
  | cdoor (st : Ctx) (d a b : Reg)
  /-- R119. -/
  | csetaddr (st : Ctx) (d a b : Reg)
  /-- R195. -/
  | cinc (st : Ctx) (d a b : Reg)
  /-- R195. -/
  | cinci (st : Ctx) (d a : Reg) (imm : BitVec 16)
  /-- R118. -/
  | cbound (st : Ctx) (d a b : Reg)
  /-- R195. -/
  | cboundx (st : Ctx) (d a b : Reg)
  /-- R195. -/
  | cboundi (st : Ctx) (d a : Reg) (imm : BitVec 16)
  /-- R195. -/
  | cperm (st : Ctx) (d a b : Reg)
  /-- R195. -/
  | cgetbase (st : Ctx) (d a b : Reg)
  /-- R195. -/
  | cgetlen (st : Ctx) (d a b : Reg)
  /-- R195. -/
  | cgetperm (st : Ctx) (d a b : Reg)
  /-- R195. -/
  | cgetkind (st : Ctx) (d a b : Reg)
  /-- R195. -/
  | cgettag (st : Ctx) (d a b : Reg)
  /-- R195. -/
  | cgetnode (st : Ctx) (d a b : Reg)
  /-- R195. -/
  | ceq (st : Ctx) (d a b : Reg)
  /-- R188: `w` is the W bit. -/
  | add (st : Ctx) (d a b : Reg) (w : Bool)
  /-- R188: `w` is the W bit. -/
  | sub (st : Ctx) (d a b : Reg) (w : Bool)
  /-- R188: `w` is the W bit. -/
  | andOp (st : Ctx) (d a b : Reg) (w : Bool)
  /-- R188: `w` is the W bit. -/
  | orOp (st : Ctx) (d a b : Reg) (w : Bool)
  /-- R188: `w` is the W bit. -/
  | xorOp (st : Ctx) (d a b : Reg) (w : Bool)
  /-- R188: `w` is the W bit. -/
  | andn (st : Ctx) (d a b : Reg) (w : Bool)
  /-- R188: `w` is the W bit. -/
  | sll (st : Ctx) (d a b : Reg) (w : Bool)
  /-- R188: `w` is the W bit. -/
  | srl (st : Ctx) (d a b : Reg) (w : Bool)
  /-- R188: `w` is the W bit. -/
  | sra (st : Ctx) (d a b : Reg) (w : Bool)
  /-- R188: `w` is the W bit. -/
  | ror (st : Ctx) (d a b : Reg) (w : Bool)
  /-- R188: `w` is the W bit. -/
  | slt (st : Ctx) (d a b : Reg) (w : Bool)
  /-- R188: `w` is the W bit. -/
  | sltu (st : Ctx) (d a b : Reg) (w : Bool)
  /-- R188: `w` is the W bit. -/
  | minOp (st : Ctx) (d a b : Reg) (w : Bool)
  /-- R188: `w` is the W bit. -/
  | maxOp (st : Ctx) (d a b : Reg) (w : Bool)
  /-- R188: `w` is the W bit. -/
  | minu (st : Ctx) (d a b : Reg) (w : Bool)
  /-- R188: `w` is the W bit. -/
  | maxu (st : Ctx) (d a b : Reg) (w : Bool)
  /-- R188: `w` is the W bit. -/
  | mul (st : Ctx) (d a b : Reg) (w : Bool)
  /-- R188: `w` is the W bit. -/
  | mulh (st : Ctx) (d a b : Reg) (w : Bool)
  /-- R188: `w` is the W bit. -/
  | mulhu (st : Ctx) (d a b : Reg) (w : Bool)
  /-- R188: `w` is the W bit. -/
  | div (st : Ctx) (d a b : Reg) (w : Bool)
  /-- R188: `w` is the W bit. -/
  | divu (st : Ctx) (d a b : Reg) (w : Bool)
  /-- R188: `w` is the W bit. -/
  | rem (st : Ctx) (d a b : Reg) (w : Bool)
  /-- R188: `w` is the W bit. -/
  | remu (st : Ctx) (d a b : Reg) (w : Bool)
  /-- R188: `w` is the W bit. -/
  | clz (st : Ctx) (d a b : Reg) (w : Bool)
  /-- R188: `w` is the W bit. -/
  | ctz (st : Ctx) (d a b : Reg) (w : Bool)
  /-- R188: `w` is the W bit. -/
  | popc (st : Ctx) (d a b : Reg) (w : Bool)
  /-- R188: `w` is the W bit. -/
  | sextB (st : Ctx) (d a b : Reg) (w : Bool)
  /-- R188: `w` is the W bit. -/
  | sextH (st : Ctx) (d a b : Reg) (w : Bool)
  /-- R188: `w` is the W bit. -/
  | sextW (st : Ctx) (d a b : Reg) (w : Bool)
  /-- R188: `w` is the W bit. -/
  | zextW (st : Ctx) (d a b : Reg) (w : Bool)
  /-- R190. -/
  | addi (st : Ctx) (d a : Reg) (imm : BitVec 16)
  /-- R190. -/
  | andi (st : Ctx) (d a : Reg) (imm : BitVec 16)
  /-- R190. -/
  | ori (st : Ctx) (d a : Reg) (imm : BitVec 16)
  /-- R190. -/
  | xori (st : Ctx) (d a : Reg) (imm : BitVec 16)
  /-- R190. -/
  | slti (st : Ctx) (d a : Reg) (imm : BitVec 16)
  /-- R190. -/
  | sltiu (st : Ctx) (d a : Reg) (imm : BitVec 16)
  /-- R190: `amt` is IMM[5:0], `w` IMM[8], `hi` IMM[15:9]. -/
  | slli (st : Ctx) (d a : Reg) (amt : BitVec 6) (w : Bool) (hi : BitVec 7)
  /-- R190: `amt` is IMM[5:0], `w` IMM[8], `hi` IMM[15:9]. -/
  | srli (st : Ctx) (d a : Reg) (amt : BitVec 6) (w : Bool) (hi : BitVec 7)
  /-- R190: `amt` is IMM[5:0], `w` IMM[8], `hi` IMM[15:9]. -/
  | srai (st : Ctx) (d a : Reg) (amt : BitVec 6) (w : Bool) (hi : BitVec 7)
  /-- R190: `amt` is IMM[5:0], `w` IMM[8], `hi` IMM[15:9]. -/
  | rori (st : Ctx) (d a : Reg) (amt : BitVec 6) (w : Bool) (hi : BitVec 7)
  /-- R190. -/
  | addiw (st : Ctx) (d a : Reg) (imm : BitVec 16)
  /-- R190. -/
  | movi (st : Ctx) (d : Reg) (imm : BitVec 21)
  /-- R190: `a` is the field A, whose low two bits are h. -/
  | ins16 (st : Ctx) (d a : Reg) (imm : BitVec 16)
  /-- R190. -/
  | pcadd (st : Ctx) (d : Reg) (imm : BitVec 21)
  /-- R191, R192. -/
  | lb (st : Ctx) (d a : Reg) (m : MemForm)
  /-- R191, R192. -/
  | lbu (st : Ctx) (d a : Reg) (m : MemForm)
  /-- R191, R192. -/
  | lh (st : Ctx) (d a : Reg) (m : MemForm)
  /-- R191, R192. -/
  | lhu (st : Ctx) (d a : Reg) (m : MemForm)
  /-- R191, R192. -/
  | lw (st : Ctx) (d a : Reg) (m : MemForm)
  /-- R191, R192. -/
  | lwu (st : Ctx) (d a : Reg) (m : MemForm)
  /-- R191, R192. -/
  | ld (st : Ctx) (d a : Reg) (m : MemForm)
  /-- R191, R192. -/
  | ldc (st : Ctx) (d a : Reg) (m : MemForm)
  /-- R191, R192. -/
  | sb (st : Ctx) (d a : Reg) (m : MemForm)
  /-- R191, R192. -/
  | sh (st : Ctx) (d a : Reg) (m : MemForm)
  /-- R191, R192. -/
  | sw (st : Ctx) (d a : Reg) (m : MemForm)
  /-- R191, R192. -/
  | sd (st : Ctx) (d a : Reg) (m : MemForm)
  /-- R191, R192. -/
  | stc (st : Ctx) (d a : Reg) (m : MemForm)
  /-- R191: the field D must be 0. -/
  | ldblk (st : Ctx) (d a : Reg) (imm : BitVec 16)
  /-- R191: the field D must be 0. -/
  | stblk (st : Ctx) (d a : Reg) (imm : BitVec 16)
  /-- R196. -/
  | beq (st : Ctx) (a b : Reg) (off : BitVec 13)
  /-- R196. -/
  | bne (st : Ctx) (a b : Reg) (off : BitVec 13)
  /-- R196. -/
  | blt (st : Ctx) (a b : Reg) (off : BitVec 13)
  /-- R196. -/
  | bge (st : Ctx) (a b : Reg) (off : BitVec 13)
  /-- R196. -/
  | bltu (st : Ctx) (a b : Reg) (off : BitVec 13)
  /-- R196. -/
  | bgeu (st : Ctx) (a b : Reg) (off : BitVec 13)
  /-- R196. -/
  | bt (st : Ctx) (a b : Reg) (off : BitVec 13)
  /-- R196. -/
  | bnt (st : Ctx) (a b : Reg) (off : BitVec 13)
  /-- R197. -/
  | jl (st : Ctx) (d : Reg) (imm : BitVec 21)
  /-- R197. -/
  | jr (st : Ctx) (d a b : Reg)
  /-- R151. -/
  | enter (st : Ctx) (d a b : Reg)
  /-- R152. -/
  | leave (st : Ctx) (d a b : Reg)
  /-- R155. -/
  | stowLo (st : Ctx) (d a b : Reg)
  /-- R155. -/
  | stowHi (st : Ctx) (d a b : Reg)
  /-- R156. -/
  | unstow (st : Ctx) (d a b : Reg)
  /-- R172. -/
  | wait (st : Ctx) (d a b : Reg)
  /-- R168. -/
  | yield (st : Ctx) (d a b : Reg)
  /-- R165. -/
  | shandle (st : Ctx) (d a b : Reg)
  /-- R166. -/
  | ststart (st : Ctx) (d a b : Reg)
  /-- R166. -/
  | ststop (st : Ctx) (d a b : Reg)
  /-- R166. -/
  | stprio (st : Ctx) (d a b : Reg)
  /-- R166. -/
  | stsig (st : Ctx) (d a b : Reg)
  /-- R166. -/
  | ststat (st : Ctx) (d a b : Reg)
  /-- R161. -/
  | mvsqR (st : Ctx) (d a b : Reg)
  /-- R161. -/
  | mvsqW (st : Ctx) (d a b : Reg)
  /-- R162: the squint access for which this stall waits is made. -/
  | squintAccess (st : StallId)
  /-- R169. -/
  | stallSwitch (core : Fin 4)
  /-- R168. -/
  | quantumExpiry (core : Fin 4)
  /-- R146. -/
  | missDataArrival (st : StallId)
  /-- R170: event `n`, on its way to a core, arrives. -/
  | eventArrival (n : Fin 64) (core : Fin 4)
  /-- R174. -/
  | limiterIntervalEnd (n : Fin 64)
  /-- R230: the fields D and A must be 0. -/
  | trap (st : Ctx) (n : BitVec 12) (d a : Reg)
  /-- R247: every other field must be 0. -/
  | retx (st : Ctx) (d a b : Reg) (low : BitVec 7)
  /-- R249. -/
  | interrupt (st : StallId)
  /-- R233. -/
  | farOutcome (st : StallId)
  /-- R229: A and FN[6:0] must be 0; `b` is the number. -/
  | mvspR (st : Ctx) (d a b : Reg) (low : BitVec 7)
  /-- R229: D and FN[6:0] must be 0; `b` is the number. -/
  | mvspW (st : Ctx) (d a b : Reg) (low : BitVec 7)
  /-- R211: `sgl` is OP 0x31, `rm` is FN[10:8]. -/
  | fadd (st : Ctx) (d a b : Reg) (sgl : Bool) (rm : BitVec 3)
  /-- R211: `sgl` is OP 0x31, `rm` is FN[10:8]. -/
  | fsub (st : Ctx) (d a b : Reg) (sgl : Bool) (rm : BitVec 3)
  /-- R211: `sgl` is OP 0x31, `rm` is FN[10:8]. -/
  | fmul (st : Ctx) (d a b : Reg) (sgl : Bool) (rm : BitVec 3)
  /-- R211: `sgl` is OP 0x31, `rm` is FN[10:8]. -/
  | fdiv (st : Ctx) (d a b : Reg) (sgl : Bool) (rm : BitVec 3)
  /-- R211: `sgl` is OP 0x31, `rm` is FN[10:8]. -/
  | fsqrt (st : Ctx) (d a b : Reg) (sgl : Bool) (rm : BitVec 3)
  /-- R211: `sgl` is OP 0x31, `rm` is FN[10:8]. -/
  | fmin (st : Ctx) (d a b : Reg) (sgl : Bool) (rm : BitVec 3)
  /-- R211: `sgl` is OP 0x31, `rm` is FN[10:8]. -/
  | fmax (st : Ctx) (d a b : Reg) (sgl : Bool) (rm : BitVec 3)
  /-- R211: `sgl` is OP 0x31, `rm` is FN[10:8]. -/
  | fma (st : Ctx) (d a b : Reg) (sgl : Bool) (rm : BitVec 3)
  /-- R211: `sgl` is OP 0x31, `rm` is FN[10:8]. -/
  | fms (st : Ctx) (d a b : Reg) (sgl : Bool) (rm : BitVec 3)
  /-- R211: `sgl` is OP 0x31, `rm` is FN[10:8]. -/
  | fnma (st : Ctx) (d a b : Reg) (sgl : Bool) (rm : BitVec 3)
  /-- R211: `sgl` is OP 0x31, `rm` is FN[10:8]. -/
  | fnms (st : Ctx) (d a b : Reg) (sgl : Bool) (rm : BitVec 3)
  /-- R212: B must be 0; `rm` is FN[10:8]. -/
  | fcvtSD (st : Ctx) (d a b : Reg) (rm : BitVec 3)
  /-- R212: B must be 0; `rm` is FN[10:8]. -/
  | fcvtDS (st : Ctx) (d a b : Reg) (rm : BitVec 3)
  /-- R212: B must be 0; `rm` is FN[10:8]. -/
  | fcvtBfS (st : Ctx) (d a b : Reg) (rm : BitVec 3)
  /-- R212: B must be 0; `rm` is FN[10:8]. -/
  | fcvtSBf (st : Ctx) (d a b : Reg) (rm : BitVec 3)
  /-- R212: B must be 0; `rm` is FN[10:8]. -/
  | fcvtLD (st : Ctx) (d a b : Reg) (rm : BitVec 3)
  /-- R212: B must be 0; `rm` is FN[10:8]. -/
  | fcvtLuD (st : Ctx) (d a b : Reg) (rm : BitVec 3)
  /-- R212: B must be 0; `rm` is FN[10:8]. -/
  | fcvtWD (st : Ctx) (d a b : Reg) (rm : BitVec 3)
  /-- R212: B must be 0; `rm` is FN[10:8]. -/
  | fcvtWuD (st : Ctx) (d a b : Reg) (rm : BitVec 3)
  /-- R212: B must be 0; `rm` is FN[10:8]. -/
  | fcvtLS (st : Ctx) (d a b : Reg) (rm : BitVec 3)
  /-- R212: B must be 0; `rm` is FN[10:8]. -/
  | fcvtLuS (st : Ctx) (d a b : Reg) (rm : BitVec 3)
  /-- R212: B must be 0; `rm` is FN[10:8]. -/
  | fcvtWS (st : Ctx) (d a b : Reg) (rm : BitVec 3)
  /-- R212: B must be 0; `rm` is FN[10:8]. -/
  | fcvtWuS (st : Ctx) (d a b : Reg) (rm : BitVec 3)
  /-- R212: B must be 0; `rm` is FN[10:8]. -/
  | fcvtDL (st : Ctx) (d a b : Reg) (rm : BitVec 3)
  /-- R212: B must be 0; `rm` is FN[10:8]. -/
  | fcvtDLu (st : Ctx) (d a b : Reg) (rm : BitVec 3)
  /-- R212: B must be 0; `rm` is FN[10:8]. -/
  | fcvtSL (st : Ctx) (d a b : Reg) (rm : BitVec 3)
  /-- R212: B must be 0; `rm` is FN[10:8]. -/
  | fcvtSLu (st : Ctx) (d a b : Reg) (rm : BitVec 3)
  /-- R213: `sgl` is FN[8]; `hi` is FN[10:9]. -/
  | feq (st : Ctx) (d a b : Reg) (sgl : Bool) (hi : BitVec 2)
  /-- R213: `sgl` is FN[8]; `hi` is FN[10:9]. -/
  | flt (st : Ctx) (d a b : Reg) (sgl : Bool) (hi : BitVec 2)
  /-- R213: `sgl` is FN[8]; `hi` is FN[10:9]. -/
  | fle (st : Ctx) (d a b : Reg) (sgl : Bool) (hi : BitVec 2)
  /-- R213: `sgl` is FN[8]; `hi` is FN[10:9]. -/
  | fclass (st : Ctx) (d a b : Reg) (sgl : Bool) (hi : BitVec 2)
  /-- R213: `sgl` is FN[8]; `hi` is FN[10:9]. -/
  | fsgnj (st : Ctx) (d a b : Reg) (sgl : Bool) (hi : BitVec 2)
  /-- R213: `sgl` is FN[8]; `hi` is FN[10:9]. -/
  | fsgnjn (st : Ctx) (d a b : Reg) (sgl : Bool) (hi : BitVec 2)
  /-- R213: `sgl` is FN[8]; `hi` is FN[10:9]. -/
  | fsgnjx (st : Ctx) (d a b : Reg) (sgl : Bool) (hi : BitVec 2)
  /-- R213: A must be 0. -/
  | fliS (st : Ctx) (d a : Reg) (imm : BitVec 16)
  /-- R213: A must be 0. -/
  | fliD (st : Ctx) (d a : Reg) (imm : BitVec 16)
  /-- R217: `w` is FN[4]; `hi` is FN[10:5]. -/
  | amoswap (st : Ctx) (d a b : Reg) (w : Bool) (hi : BitVec 6)
  /-- R217: `w` is FN[4]; `hi` is FN[10:5]. -/
  | amoadd (st : Ctx) (d a b : Reg) (w : Bool) (hi : BitVec 6)
  /-- R217: `w` is FN[4]; `hi` is FN[10:5]. -/
  | amoand (st : Ctx) (d a b : Reg) (w : Bool) (hi : BitVec 6)
  /-- R217: `w` is FN[4]; `hi` is FN[10:5]. -/
  | amoor (st : Ctx) (d a b : Reg) (w : Bool) (hi : BitVec 6)
  /-- R217: `w` is FN[4]; `hi` is FN[10:5]. -/
  | amoxor (st : Ctx) (d a b : Reg) (w : Bool) (hi : BitVec 6)
  /-- R217: `w` is FN[4]; `hi` is FN[10:5]. -/
  | amomin (st : Ctx) (d a b : Reg) (w : Bool) (hi : BitVec 6)
  /-- R217: `w` is FN[4]; `hi` is FN[10:5]. -/
  | amomax (st : Ctx) (d a b : Reg) (w : Bool) (hi : BitVec 6)
  /-- R217: `w` is FN[4]; `hi` is FN[10:5]. -/
  | amominu (st : Ctx) (d a b : Reg) (w : Bool) (hi : BitVec 6)
  /-- R217: `w` is FN[4]; `hi` is FN[10:5]. -/
  | amomaxu (st : Ctx) (d a b : Reg) (w : Bool) (hi : BitVec 6)
  /-- R217: `w` is FN[4]; `hi` is FN[10:5]. -/
  | cas (st : Ctx) (d a b : Reg) (w : Bool) (hi : BitVec 6)
  /-- R217: `w` is FN[4]; `hi` is FN[10:5]. -/
  | casC (st : Ctx) (d a b : Reg) (w : Bool) (hi : BitVec 6)
  /-- R225: every field must be 0. -/
  | fenceMem (st : Ctx) (d a b : Reg)
  /-- R225: every field must be 0. -/
  | fenceIns (st : Ctx) (d a b : Reg)
  /-- R225: every field must be 0. -/
  | fenceXlt (st : Ctx) (d a b : Reg)
  /-- R225: every field must be 0. -/
  | fenceScr (st : Ctx) (d a b : Reg)
  /-- R225, R275. -/
  | xinv (st : Ctx) (d a b : Reg)
  /-- R225, R275. -/
  | xinvG (st : Ctx) (d a b : Reg)
  /-- R225, R275. -/
  | xinvA (st : Ctx) (d a b : Reg)
  /-- R225, R275. -/
  | xinvGa (st : Ctx) (d a b : Reg)
  /-- R276: the oldest outstanding XINV of a core completes. -/
  | xinvComplete (core : Fin 4)
  /-- R221: the oldest buffered store of a context becomes visible. -/
  | storeVisible (st : Ctx)
  /-- R289: a write of SCR_ATTR_n. -/
  | screenRuleCommit (who : Initiator) (n : Fin 32) (data : BitVec 32)
  /-- R292: the commit of a rule is in effect. -/
  | screenRuleInEffect (n : Fin 32)
  /-- R298: a write of POP. -/
  | scrLogPop (who : Initiator)
  /-- R311: the scrubber reads the line or granule at `pa`; `err`: what its code shows. -/
  | memoryScrub (pa : BitVec 44) (err : Option MemErr)
  /-- R315: a rank is refreshed and the device temperature (mode-register status) is read. -/
  | dramRefresh (ch : Fin 2) (rank : Bool) (temp : BitVec 8)
  /-- R326: the neighbour's serial, nonce and ephemeral key have arrived; `sigOk`: its signature checks. -/
  | laneKeyAgreement (lane : LaneId) (peer : BitVec 64) (nonce pub : List (BitVec 8)) (sigOk : Bool)
  /-- R328 step 5: `peer` and `peerRate` are the neighbour's serial and rate offer, `peerProt`: it runs protected. -/
  | laneInService (lane : LaneId) (peer : BitVec 64) (peerRate : BitVec 2) (peerProt : Bool)
  /-- R328: the neighbour does not answer. -/
  | laneTrainingRetry (lane : LaneId)
  /-- R326: the codeword counter of one direction (`rx`: receive) has reached 2^31. -/
  | linkKeyRatchet (lane : LaneId) (rx : Bool)
  /-- R324: a codeword with control field `ctl` and body (624 payload bytes, 16 tag bytes) is received. -/
  | codewordRx (lane : LaneId) (fec : FecResult) (ctl : BitVec 20) (body : List (BitVec 8))
  /-- R352, R340, R359: cumulative freed units per class, the wicket state, the instants of a delay exchange, a beacon. -/
  | linkCodewordRx (lane : LaneId) (freed : Vector (BitVec 32) 4) (wicketEmpty : Bool) (delay : Option DelayExchange)
      (beacon : Option Beacon)
  /-- R329. -/
  | bayStart
  /-- R330: a marker arrives on a ring and resides `residence` × 2^−16 ns. -/
  | markerRx (ring : RingId) (m : Marker) (residence : Nat)
  /-- R332, R364: the cell in slot `slot` of the region passing on a ring. -/
  | safeCellRx (ring : RingId) (slot : BitVec 8) (cell : List (BitVec 8))
  /-- R343. -/
  | lossOfLock (loss : LockLoss)
  /-- R344. -/
  | portFold (port : PortId)
  /-- R346. -/
  | portUnfold (port : PortId)
  /-- R347. -/
  | plannedWrap (lane : LaneId)
  /-- R336. -/
  | enumStart
  /-- R336: a write of RING_ENUM. -/
  | ringEnumGo (who : Initiator) (data : BitVec 32)
  /-- R336: an ENUM arrives on a ring. -/
  | enumRx (ring : RingId) (next : BitVec 16) (excess : BitVec 8) (gwserial : BitVec 64) (path : Travel)
  /-- R336. -/
  | enumDoneRx (nodes : BitVec 16) (gwserial : BitVec 64)
  /-- R337. -/
  | joinTimer
  /-- R337: a JOIN reaches the gateway. -/
  | joinRx (serial : BitVec 64)
  /-- R337. -/
  | assignRx (serial : BitVec 64) (id : BitVec 8)
  /-- R337. -/
  | noticeRx (kind : BitVec 8) (node : BitVec 8) (port : BitVec 8)
  /-- R338. -/
  | nodeIsolated
  /-- R350: a variable frame arrives on a ring input. -/
  | frameRx (ring : RingId) (f : Arrival)
  /-- R354: the output of a ring can begin a frame. -/
  | frameTxStart (ring : RingId)
  /-- R360. -/
  | beaconLapse (ring : RingId)
  /-- R363: a write of RING_SAFE_TX_CTRL. -/
  | safeTxGo (who : Initiator) (data : BitVec 32)
  /-- R367: a write of RING_CTRL_TX_PUSH. -/
  | ringCtrlTxPush (who : Initiator) (data : BitVec 32)
  /-- R367: a write of RING_CTRL_RX_POP. -/
  | ringCtrlRxPop (who : Initiator) (data : BitVec 32)
  /-- R366: RETRY has passed for the reliable frame outstanding to a destination. -/
  | ctrlRetry (dest : BitVec 8)
  /-- R366. -/
  | ctrlAckRx (src : BitVec 8) (seq : BitVec 32)
  /-- R371: a LOAD or STORE frame is ejected. -/
  | farRequestRx (f : Frame)
  /-- R371. -/
  | farRequestService
  /-- R373: a QUERY frame is ejected. -/
  | queryRx (f : Frame)
  /-- R369, R370: a response frame is ejected. -/
  | farResponseRx (f : Frame)
  /-- R370. -/
  | farTimerExpiry (st : StallId)
  /-- R370. -/
  | farBackoffEnd (st : StallId)
  /-- R376: a frame is received on the wire: bytes without FCS, whether the FCS is good, arrival in ns since the last frame. -/
  | tpWireFrameRx (port : TPort) (frame : List (BitVec 8)) (fcsOk : Bool)
  /-- R379: the wire of a port can send a frame. -/
  | tpWireFrameTx (port : TPort)
  /-- R381: the port takes its next transmit descriptor. -/
  | tpTxDescriptor (port : TPort)
  /-- R380: EN 0 is written to a descriptor ring (`tx`: the transmit ring). -/
  | tpRingDisable (port : TPort) (tx : Bool)
  /-- R385. -/
  | tpPtpOffsetWrite (port : TPort) (offset : BitVec 64)
  /-- R375: the port's block lock, FEC lock, local and remote fault. -/
  | tpLinkChange (port : TPort) (block fec lf rf : Bool)
  /-- R389: a write of GO to CPH_SLOT_CTRL_s. -/
  | cphSlotGo (slot : SlotId)
  /-- R394. -/
  | cphSlotAbort (slot : SlotId)
  /-- R389. -/
  | cphSlotClear (slot : SlotId)
  /-- R386: the running job goes on until `upto` bytes are processed or it ends. -/
  | aesGcmEncrypt (upto : Nat)
  /-- R386. -/
  | aesGcmDecrypt (upto : Nat)
  /-- R386. -/
  | aesCtr (upto : Nat)
  /-- R386. -/
  | aesCbcEncrypt (upto : Nat)
  /-- R386. -/
  | aesCbcDecrypt (upto : Nat)
  /-- R386. -/
  | sha256 (upto : Nat)
  /-- R386. -/
  | sha384 (upto : Nat)
  /-- R386. -/
  | sha3256 (upto : Nat)
  /-- R386. -/
  | ecdsaVerify
  /-- R386. -/
  | ecdsaSign
  /-- R386. -/
  | x25519
  /-- R386. -/
  | copy (upto : Nat)
  /-- R126. -/
  | capabilityAwareCopy (upto : Nat)
  /-- R395. -/
  | random (upto : Nat)
  /-- R391. -/
  | cphPreempt
  /-- R392. -/
  | cphQuantumYield
  /-- R391. -/
  | cphJobResume
  /-- R395. -/
  | drbgReseed
  /-- R481, R395. -/
  | trngHealthFail
  /-- R397: a frame, and what the program returns for each of its blobs in order (`err`: it met poison or faulted). -/
  | cameraFrameRx (f : CsiFrame) (res : List BlobResult) (err : Bool)
  /-- R398. -/
  | cameraLost
  /-- R399: a thermal frame of 16-bit pixels, complete or not. -/
  | thermalFrameRead (complete : Bool) (pix : List (List (BitVec 16))) (res : List BlobResult) (err : Bool)
  /-- R401: RUN is written 1. -/
  | clrRunStart
  /-- R410: RUN is written 0. -/
  | clrRunStop
  /-- R403: LOAD_A (0) or LOAD_B (1). -/
  | clrLoad (bank : Fin 2)
  /-- R403; `sig`: SIG of the image verifies (R503, order 4). -/
  | clrLoadDone (bank : Fin 2) (sig : Bool)
  /-- R405. -/
  | clrSwap
  /-- R406: a write of CLR_ZONE_z_CTRL. -/
  | clrZoneCommit (z : Fin 16) (data : BitVec 32)
  /-- R408: the write of CLR_HOMOG_8. -/
  | clrHomogCommit (data : BitVec 32)
  /-- R409: the write of CLR_SPEED_EDGE_6. -/
  | clrSpeedEdgeCommit (data : BitVec 32)
  /-- R411. -/
  | periodEnd
  /-- R422: general timer `n` reaches its period boundary. -/
  | gtPeriodBoundary (n : Fin 16)
  /-- R423: CNT of timer `n` becomes equal to CMPk. -/
  | gtCompareEvent (n : Fin 16) (k : Fin 2)
  /-- R425: EN of timer `n` is written 1. -/
  | gtEnable (n : Fin 16)
  /-- R425: EN of timer `n` is written 0. -/
  | gtDisable (n : Fin 16)
  /-- R426: ARM of timer `n` is written 1. -/
  | gtArm (n : Fin 16)
  /-- R428. -/
  | tmrArmSet (units : BitVec 32)
  /-- R428. -/
  | tmrHoldSet (units : BitVec 32)
  /-- R428. -/
  | tmrHoldClr (units : BitVec 32)
  /-- R432: TMR_GSTART.GO is written 1. -/
  | gstartGo
  /-- R433: TMR_GSTART.ARM_AT is written 1. -/
  | armAt
  /-- R432: TMR_GSTART.CANCEL is written 1. -/
  | gstartCancel
  /-- R433. -/
  | scheduledRelease
  /-- R435: channel LPn reaches its period boundary. -/
  | lpPeriodBoundary (n : Fin 8)
  /-- R437. -/
  | lpEnable (n : Fin 8)
  /-- R437. -/
  | lpDisable (n : Fin 8)
  /-- R437. -/
  | lpArm (n : Fin 8)
  /-- R439: the filtered input of EDn changes to `level`. -/
  | edEdge (n : Fin 16) (level : Bool)
  /-- R441: TMR_ED_POP.POP of EDn is written 1. -/
  | tmrEdPop (n : Fin 16)
  /-- R447: a write of DALI_TX. -/
  | daliTxGo (data : BitVec 32)
  /-- R447: the frame on the bus ends. -/
  | daliFrameEnd (e : DaliEnd)
  /-- R449: DALI_RX has been low for more than 500 ms. -/
  | daliBusFault
  /-- R456, R523: the 1 ms tick. -/
  | sacristyTick
  /-- R522: the outputs are given back. -/
  | lampGiveBack
  /-- R465. -/
  | vigilDaliRepeat
  /-- R457: the sixteen readings in the units of the telemetry page; `counted`: the sample of ISNSn was taken while LPn
  was high at the multiplexer output, at least 20 µs after its rising edge (R528). -/
  | adcRound (mv : Vector Nat 16) (counted : BitVec 2)
  /-- R458: the sensors in 0.1 °C. -/
  | temperatureRead (sac : Vector Int 2) (nave : Vector Int 8)
  /-- R549: the wait has passed and the Sacristy sensors have read below 110 °C for 10 s. -/
  | thermalRestart
  /-- R462. -/
  | derateEvaluation
  /-- R463, R543. -/
  | vddNaveSettled
  /-- R548: the slowdown measured, in hundredths of a per cent. -/
  | ageingMeasurement (slowdown : Nat)
  /-- R548: the eye margin of each lane in per cent of the opening at training. -/
  | laneEyeMeasurement (margin : Vector Nat 4)
  /-- R470: a write of RING to a Nave-to-Sacristy slot. -/
  | hatchTxRing (s : Fin 16)
  /-- R471: a write of ACK to a Sacristy-to-Nave slot. -/
  | hatchRxAck (s : Fin 16)
  /-- R473. -/
  | heartbeatChallenge
  /-- R473: the Sacristy judges the answer in slot 15. -/
  | heartbeatAnswer
  /-- R474: the oldest challenge passes its 20 ms. -/
  | heartbeatDeadline
  /-- R474. -/
  | heartbeatGraceExpiry
  /-- R475: the request in slot `s` is served. -/
  | logWrite (s : Fin 16)
  /-- R475. -/
  | logInfo (s : Fin 16)
  /-- R475. -/
  | sign (s : Fin 16)
  /-- R475. -/
  | cert (s : Fin 16)
  /-- R475, R461. -/
  | configRead (s : Fin 16)
  /-- R461: `token`: the request carries a valid configuration token; `verified`: the margin read passes. -/
  | configWrite (s : Fin 16) (token verified : Bool)
  /-- R482. -/
  | lcChallenge (s : Fin 16)
  /-- R482: `sigOk`: the token is signed by the debug authority and carries this serial and the nonce `nonce`. -/
  | lcDebug (s : Fin 16) (sigOk : Bool) (nonce : List (BitVec 8))
  /-- R482, R483: the same with the cloister authority. -/
  | lcDecommission (s : Fin 16) (sigOk : Bool) (nonce : List (BitVec 8))
  /-- R476. -/
  | telemetryUpdate
  /-- R487, R490: GO with OP 0x1; the address and the data are in FL_ADDR and FL_PAGE_BUF. -/
  | program (a : Aisle) (nwords : BitVec 3)
  /-- R487: GO with OP 0x2. -/
  | zero (a : Aisle) (nwords : BitVec 3)
  /-- R493: GO with OP 0x3. -/
  | eraseSector (a : Aisle)
  /-- R490: GO with OP 0x4. -/
  | eraseBlock (a : Aisle)
  /-- R490: GO with OP 0x5. -/
  | mread (a : Aisle) (nwords : BitVec 3) (mode : BitVec 2)
  /-- R490: the command of an aisle ends; `fails`: the words that fail the margin of an MREAD, `verified`: the
  controller's own verification of an erase passes. -/
  | flashCommandDone (a : Aisle) (fails : BitVec 8) (verified : Bool)
  /-- R491. -/
  | eraseResume (a : Aisle)
  /-- R496: the sector is read in retention-check margin: programmed words that fail or needed correction, those of them
  that still fail after being programmed again, uncorrectable words, and whether an erased cell fails. -/
  | flashScrubSector (a : Aisle) (sector : Fin 2048) (weak still bad : BitVec 128) (erasedFail : Bool)
  /-- R498. -/
  | flInfo (s : Fin 16)
  /-- R498. -/
  | flProgram (s : Fin 16)
  /-- R498. -/
  | flErase (s : Fin 16)
  /-- R498. -/
  | flWear (s : Fin 16)
  /-- R510. -/
  | stageBegin (src : StageSrc) (verified : Bool)
  /-- R510. -/
  | stageWrite (src : StageSrc) (verified : Bool)
  /-- R510: `readable`: every byte could be read; `sigOk`: SIG verifies (R503, orders 1 and 4). -/
  | stageEnd (src : StageSrc) (readable sigOk : Bool)
  /-- R510. -/
  | activate (src : StageSrc)
  /-- R512. -/
  | lgMeasure (s : Fin 16)
  /-- R510. -/
  | lgCommit (s : Fin 16)
  /-- R510. -/
  | lgAbort (s : Fin 16)
  /-- R509: `blown`: the fuse steps verify (R504). -/
  | confirm (s : Fin 16) (blown : Bool)
  /-- R510. -/
  | slotInfo (s : Fin 16)
  /-- R511. -/
  | exchangeDeadline
  /-- R509. -/
  | firmwareSelfConfirm (blown : Bool)
  /-- R513. -/
  | svcStatus
  /-- R513. -/
  | svcLogRead (first : BitVec 32) (count : Nat)
  /-- R513. -/
  | svcFrameTimeout
  /-- R531. -/
  | overcurrentCut (n : Fin 2)
  /-- R531. -/
  | overcurrentCutRelease (n : Fin 2)
  /-- R526. -/
  | scheduleVote
  /-- R533: whether every test passed, and whether the override test ran. -/
  | latentSelfTest (pass : Bool)
  /-- R580: CMD 0 is queued. -/
  | i2cStart (n : Fin 3) (data : BitVec 8)
  /-- R580: CMD 1 is queued. -/
  | i2cSend (n : Fin 3) (data : BitVec 8)
  /-- R580: CMD 2 is queued. -/
  | i2cReadAck (n : Fin 3)
  /-- R580: CMD 3 is queued. -/
  | i2cReadNack (n : Fin 3)
  /-- R580: CMD 4 is queued. -/
  | i2cStop (n : Fin 3)
  /-- R580: the oldest queued command ends. -/
  | i2cCommandDone (n : Fin 3) (e : I2cEnd)
  /-- R579. -/
  | i2cStretchTimeout (n : Fin 3)
  /-- R582. -/
  | spiTxWrite (n : Fin 2) (data : BitVec 8) (cs last : Bool)
  /-- R582: the oldest byte is exchanged for `rx`. -/
  | spiByteDone (n : Fin 2) (rx : BitVec 8)
  /-- R583. -/
  | uartTxWrite (n : Fin 2) (data : BitVec 8)
  /-- R583. -/
  | uartCharSent (n : Fin 2)
  /-- R584. -/
  | uartCharRx (n : Fin 2) (data : BitVec 8) (pe fe brk : Bool)
  /-- R585. -/
  | gpioSet (data : BitVec 32)
  /-- R585. -/
  | gpioClr (data : BitVec 32)
  /-- R585: the level at a ball changes to `level`. -/
  | gpioEdge (n : Fin 32) (level : Bool)
  /-- R586. -/
  | tapReset
  /-- R586. -/
  | idcode
  /-- R586, R588: the cells capture `captured` and are then loaded with `preload`. -/
  | samplePreload (captured preload : BitVec 192)
  /-- R588: the cells capture `captured` and drive `drive`. -/
  | extest (captured drive : BitVec 192)
  /-- R586. -/
  | clamp
  /-- R586. -/
  | highz
  /-- R586. -/
  | dbgXfer
  /-- R586. -/
  | bypass
  /-- R589: Update-DR with DBG_XFER selected; `busy`: the previous access is still running. -/
  | debugTransferAccess (op : BitVec 2) (reg : BitVec 14) (data : BitVec 32) (busy : Bool)
  /-- R591: DBG_CMD HALT on the stall of DBG_SEL. -/
  | halt
  /-- R591. -/
  | resume
  /-- R591. -/
  | step
  /-- R597. -/
  | dbgCmdNaveReset (key : BitVec 16)
  /-- R594. -/
  | dbgRegRead
  /-- R594. -/
  | dbgRegWrite
  /-- R595. -/
  | dbgMemRead
  /-- R595. -/
  | dbgMemWrite (data : BitVec 32)
  /-- R596. -/
  | dbgMsgRing
  /-- R596. -/
  | dbgMsgAck
  /-- R596. -/
  | dbgSwRing
  /-- R596. -/
  | dbgSwAck
  /-- R177: `word` has a reserved OP, FN or COND. -/
  | reservedEncoding (st : Ctx) (word : BitVec 32)
  /-- R395. -/
  | trngHealthPass
  /-- R449. -/
  | daliBusFaultClear
  /-- R482. -/
  | manufactureToField
  /-- R583: CTS_N of a UART changes to `level`. -/
  | uartCtsNChange (n : Fin 2) (level : Bool)
deriving DecidableEq, Repr

end Sys2Proof
end

