-- ==== Sys2Proof/Decode.lean ====
section
/-!
DEFINITION. Sys2Proof/Decode.lean: the words that spell a command: none by the command table, which gives no row any bits; and the
instruction that a 32-bit word of a program spells (R175 to R179 and the encoding tables of chapters 06 and 07).
-/
namespace Sys2Proof

/-- The command that a word of the table's bits spells: none, since no row has bits. -/
def decodeTableWord (_nbits _w : Nat) : Option Instr := none

/-! ## Instruction words (R175 to R179) -/

/-- The fields of a word (R175), by the names of its formats. -/
structure Fields where
  /-- OP, bits [31:26]. -/
  op : Nat
  /-- D of formats A, I and L; A of format B: bits [25:21]. -/
  d : Reg
  /-- A of formats A and I; B of format B: bits [20:16]. -/
  a : Reg
  /-- B of format A: bits [15:11]. -/
  b : Reg
  /-- FN of format A: bits [10:0]. -/
  fn : BitVec 11
  /-- IMM of format I. -/
  imm : BitVec 16
  /-- IMM of format L. -/
  long : BitVec 21
  /-- COND of format B: bits [15:13]. -/
  cond : Nat
  /-- OFF of format B. -/
  off : BitVec 13
deriving DecidableEq, Repr

/-- R175: the fields of a word, in every format. -/
def fieldsOf (w : BitVec 32) : Fields :=
  { op := (w.extractLsb' 26 6).toNat, d := w.extractLsb' 21 5, a := w.extractLsb' 16 5, b := w.extractLsb' 11 5,
    fn := w.extractLsb' 0 11, imm := w.extractLsb' 0 16, long := w.extractLsb' 0 21, cond := (w.extractLsb' 13 3).toNat,
    off := w.extractLsb' 0 13 }

/-- A row of a table by its number. -/
def pickRow {α : Type} (rows : List α) (n : Nat) : Option α := rows[n]?

/-- R188: OP 0x01. -/
def insnInt (st : Ctx) (x : Fields) : Option Instr :=
  let rows : List (Option (Ctx → Reg → Reg → Reg → Bool → Instr)) :=
    [some .add, some .sub, some .andOp, some .orOp, some .xorOp, some .andn, some .sll, some .srl, some .sra, some .ror, some .slt,
     some .sltu, some .minOp, some .maxOp, some .minu, some .maxu, some .mul, some .mulh, some .mulhu, none, some .div, some .divu,
     some .rem, some .remu, some .clz, some .ctz, some .popc, some .sextB, some .sextH, some .sextW, some .zextW]
  (pickRow rows (x.fn.extractLsb' 0 10).toNat).join.map (fun f => f st x.d x.a x.b (x.fn.getLsbD 10))

/-- R190: OP 0x08. -/
def insnShift (st : Ctx) (x : Fields) : Instr :=
  let rows : List (Ctx → Reg → Reg → BitVec 6 → Bool → BitVec 7 → Instr) := [.slli, .srli, .srai, .rori]
  ((pickRow rows (x.imm.extractLsb' 6 2).toNat).getD .rori) st x.d x.a (x.imm.extractLsb' 0 6) (x.imm.getLsbD 8) (x.imm.extractLsb' 9 7)

/-- R191, R192: the load or store of an Index. -/
def insnMem (st : Ctx) (x : Fields) (index : Nat) (m : MemForm) : Option Instr :=
  let rows : List (Ctx → Reg → Reg → MemForm → Instr) := [.lb, .lbu, .lh, .lhu, .lw, .lwu, .ld, .ldc, .sb, .sh, .sw, .sd, .stc]
  (pickRow rows index).map (fun f => f st x.d x.a m)

/-- R195: OP 0x20. -/
def insnCap (st : Ctx) (x : Fields) : Option Instr :=
  let rows : List (Ctx → Reg → Reg → Reg → Instr) :=
    [.cmov, .ctag, .cdoor, .csetaddr, .cinc, .cbound, .cboundx, .cperm, .cgetbase, .cgetlen, .cgetperm, .cgetkind, .cgettag, .cgetnode, .ceq]
  (pickRow rows x.fn.toNat).map (fun f => f st x.d x.a x.b)

/-- R196: OP 0x24. -/
def insnBranch (st : Ctx) (x : Fields) : Option Instr :=
  let rows : List (Ctx → Reg → Reg → BitVec 13 → Instr) := [.beq, .bne, .blt, .bge, .bltu, .bgeu, .bt, .bnt]
  (pickRow rows x.cond).map (fun f => f st x.d x.a x.off)

/-- R199: OP 0x26. -/
def insnJump (st : Ctx) (x : Fields) : Option Instr :=
  let rows : List (Ctx → Reg → Reg → Reg → Instr) := [.jr, .enter, .leave, .wait, .yield, .stowLo, .stowHi, .unstow]
  (pickRow rows x.fn.toNat).map (fun f => f st x.d x.a x.b)

/-- R200: OP 0x27; which GRANT it is, the capability in A says when it runs (R137, R142). -/
def insnStall (st : Ctx) (x : Fields) : Option Instr :=
  let rows : List (Ctx → Reg → Reg → Reg → Instr) := [.shandle, .ststart, .ststop, .stprio, .stsig, .ststat]
  match x.fn.toNat with
  | 8 => some (.mvsqR st x.d x.a x.b)
  | 9 => some (.mvsqW st x.d x.a x.b)
  | 0x10 => some (.grantIssue st x.d x.a x.b)
  | n => (pickRow rows n).map (fun f => f st x.d x.a x.b)

/-- R211: OP 0x30 and 0x31. -/
def insnFp (st : Ctx) (x : Fields) (sgl : Bool) : Option Instr :=
  let rows : List (Option (Ctx → Reg → Reg → Reg → Bool → BitVec 3 → Instr)) :=
    [some .fadd, some .fsub, some .fmul, some .fdiv, some .fsqrt, some .fmin, some .fmax, none, some .fma, some .fms, some .fnma, some .fnms]
  (pickRow rows (x.fn.extractLsb' 0 8).toNat).join.map (fun f => f st x.d x.a x.b sgl (x.fn.extractLsb' 8 3))

/-- R212: OP 0x32. -/
def insnConv (st : Ctx) (x : Fields) : Option Instr :=
  let f : List (Ctx → Reg → Reg → Reg → BitVec 3 → Instr) := [.fcvtSD, .fcvtDS, .fcvtBfS, .fcvtSBf]
  let i : List (Ctx → Reg → Reg → Reg → BitVec 3 → Instr) :=
    [.fcvtLD, .fcvtLuD, .fcvtWD, .fcvtWuD, .fcvtLS, .fcvtLuS, .fcvtWS, .fcvtWuS]
  let n : List (Ctx → Reg → Reg → Reg → BitVec 3 → Instr) := [.fcvtDL, .fcvtDLu, .fcvtSL, .fcvtSLu]
  let k := (x.fn.extractLsb' 0 8).toNat
  (if k < 0x10 then pickRow f k else if k < 0x20 then pickRow i (k - 0x10) else pickRow n (k - 0x20)).map
    (fun f => f st x.d x.a x.b (x.fn.extractLsb' 8 3))

/-- R213: OP 0x33. -/
def insnCmp (st : Ctx) (x : Fields) : Option Instr :=
  let rows : List (Ctx → Reg → Reg → Reg → Bool → BitVec 2 → Instr) := [.feq, .flt, .fle, .fclass, .fsgnj, .fsgnjn, .fsgnjx]
  (pickRow rows (x.fn.extractLsb' 0 8).toNat).map (fun f => f st x.d x.a x.b (x.fn.getLsbD 8) (x.fn.extractLsb' 9 2))

/-- R217: OP 0x38. -/
def insnAtomic (st : Ctx) (x : Fields) : Option Instr :=
  let rows : List (Ctx → Reg → Reg → Reg → Bool → BitVec 6 → Instr) :=
    [.amoswap, .amoadd, .amoand, .amoor, .amoxor, .amomin, .amomax, .amominu, .amomaxu, .cas, .casC]
  (pickRow rows (x.fn.extractLsb' 0 4).toNat).map (fun f => f st x.d x.a x.b (x.fn.getLsbD 4) (x.fn.extractLsb' 5 6))

/-- R225: OP 0x3C. -/
def insnFence (st : Ctx) (x : Fields) : Option Instr :=
  let rows : List (Ctx → Reg → Reg → Reg → Instr) := [.fenceMem, .fenceIns, .fenceXlt, .fenceScr, .grantFence]
  let inv : List (Ctx → Reg → Reg → Reg → Instr) := [.xinv, .xinvG, .xinvA, .xinvGa]
  let n := x.fn.toNat
  (if n < 0x10 then pickRow rows n else pickRow inv (n - 0x10)).map (fun f => f st x.d x.a x.b)

/-- R228: OP 0x3D. -/
def insnSystem (st : Ctx) (x : Fields) : Option Instr :=
  let low : BitVec 7 := x.fn.extractLsb' 0 7
  match (x.fn.extractLsb' 7 4).toNat with
  | 0 => some (.mvspR st x.d x.a x.b low)
  | 1 => some (.mvspW st x.d x.a x.b low)
  | 2 => some (.trap st (x.b ++ low) x.d x.a)
  | 3 => some (.retx st x.d x.a x.b low)
  | _ => none

/-- R175, R177, R190, R191: the instruction that a word spells for a context; none: its OP, FN or COND is reserved. -/
def insnOf (st : Ctx) (w : BitVec 32) : Option Instr :=
  let x := fieldsOf w
  match x.op with
  | 0x01 => insnInt st x
  | 0x02 => some (.addi st x.d x.a x.imm)
  | 0x03 => some (.andi st x.d x.a x.imm)
  | 0x04 => some (.ori st x.d x.a x.imm)
  | 0x05 => some (.xori st x.d x.a x.imm)
  | 0x06 => some (.slti st x.d x.a x.imm)
  | 0x07 => some (.sltiu st x.d x.a x.imm)
  | 0x08 => some (insnShift st x)
  | 0x09 => some (.addiw st x.d x.a x.imm)
  | 0x0A => some (.movi st x.d x.long)
  | 0x0B => some (.ins16 st x.d x.a x.imm)
  | 0x0C => some (.pcadd st x.d x.long)
  | 0x1D => some (.ldblk st x.d x.a x.imm)
  | 0x1E => some (.stblk st x.d x.a x.imm)
  | 0x1F => insnMem st x (x.fn.extractLsb' 0 4).toNat (.idx x.b (x.fn.extractLsb' 4 2) (x.fn.getLsbD 6) (x.fn.extractLsb' 7 4))
  | 0x20 => insnCap st x
  | 0x21 => some (.cinci st x.d x.a x.imm)
  | 0x22 => some (.cboundi st x.d x.a x.imm)
  | 0x24 => insnBranch st x
  | 0x25 => some (.jl st x.d x.long)
  | 0x26 => insnJump st x
  | 0x27 => insnStall st x
  | 0x30 => insnFp st x false
  | 0x31 => insnFp st x true
  | 0x32 => insnConv st x
  | 0x33 => insnCmp st x
  | 0x35 => some (.fliS st x.d x.a x.imm)
  | 0x36 => some (.fliD st x.d x.a x.imm)
  | 0x38 => insnAtomic st x
  | 0x3C => insnFence st x
  | 0x3D => insnSystem st x
  | n => if 0x10 ≤ n ∧ n < 0x1D then insnMem st x (n - 0x10) (.off x.imm) else none

end Sys2Proof
end

