-- ==== Sys2Proof/Machine/Bits.lean ====
section
/-!
DEFINITION. Sys2Proof/Machine/Bits.lean: bit fields, byte order (R4), sign extension, saturation and the sorted
association lists in which sparse storage is kept.
-/
namespace Sys2Proof.Machine

/-- The field [hi:lo] of a word, as a number. -/
def bits {n : Nat} (w : BitVec n) (hi lo : Nat) : Nat := w.toNat / 2 ^ lo % 2 ^ (hi + 1 - lo)

/-- Bit i of a word. -/
def bit {n : Nat} (w : BitVec n) (i : Nat) : Bool := w.getLsbD i

/-- A mask of ones over [hi:lo]. -/
def maskOf (n hi lo : Nat) : BitVec n := BitVec.ofNat n ((2 ^ (hi + 1 - lo) - 1) * 2 ^ lo)

/-- The word with its field [hi:lo] replaced by the low bits of v. -/
def putBits {n : Nat} (w : BitVec n) (hi lo v : Nat) : BitVec n :=
  (w &&& ~~~ maskOf n hi lo) ||| (BitVec.ofNat n ((v % 2 ^ (hi + 1 - lo)) * 2 ^ lo))

/-- The word with bit i replaced. -/
def putBit {n : Nat} (w : BitVec n) (i : Nat) (b : Bool) : BitVec n := putBits w i i b.toNat

/-- A Boolean as a 64-bit number. -/
def boolW (b : Bool) : W64 := if b then 1 else 0

/-- The low k bits of a number, sign-extended to 64 bits. -/
def sextN (k v : Nat) : W64 := (BitVec.ofNat k v).signExtend 64

/-- The low n bytes of a number, least significant first (R4). -/
def toBytes : Nat → Nat → List Byte
  | 0, _ => []
  | n + 1, v => BitVec.ofNat 8 v :: toBytes n (v / 256)

/-- The number a list of bytes spells, least significant first (R4). -/
def ofBytes : List Byte → Nat
  | [] => 0
  | b :: bs => b.toNat + 256 * ofBytes bs

/-- One more, staying at all ones (a saturating counter). -/
def satInc {n : Nat} (w : BitVec n) : BitVec n := if w = BitVec.allOnes n then w else w + 1

/-- The number of ones of a word. -/
def popCount {n : Nat} (w : BitVec n) : Nat := ((List.range n).filter (fun i => w.getLsbD i)).length

/-- A sparse store: pairs of key and value with keys strictly rising. -/
abbrev AMap (α : Type) := List (Nat × α)

/-- The value at a key, if listed. -/
def AMap.get? {α : Type} : AMap α → Nat → Option α
  | [], _ => none
  | (k, v) :: m, i => if i = k then some v else AMap.get? m i

/-- The store with a key set, keys staying in order. -/
def AMap.set {α : Type} : AMap α → Nat → α → AMap α
  | [], i, x => [(i, x)]
  | (k, v) :: m, i, x =>
    if i < k then (i, x) :: (k, v) :: m
    else if i = k then (k, x) :: m
    else (k, v) :: AMap.set m i x

/-- The store without a key. -/
def AMap.erase {α : Type} (m : AMap α) (i : Nat) : AMap α := m.filter (fun p => p.1 ≠ i)

/-- Keys strictly rise. -/
def AMap.sorted {α : Type} : AMap α → Bool
  | [] => true
  | [_] => true
  | (a, _) :: (b, y) :: m => decide (a < b) && AMap.sorted ((b, y) :: m)

/-- A sorted list of numbers with one inserted (no repeats). -/
def insertNat : List Nat → Nat → List Nat
  | [], i => [i]
  | k :: m, i => if i < k then i :: k :: m else if i = k then k :: m else k :: insertNat m i

/-- Replace the element at a position of a vector given by a number; out of range changes nothing. -/
def vset {α : Type} {n : Nat} (v : Vector α n) (i : Nat) (x : α) : Vector α n :=
  if h : i < n then v.set i x else v

/-- The element at a position given by a number, with a default. -/
def vget {α : Type} {n : Nat} (v : Vector α n) (i : Nat) (d : α) : α := v.getD i d

/-- The element at a position replaced by its image. -/
def vmod {α : Type} {n : Nat} (v : Vector α n) (i : Nat) (f : α → α) : Vector α n :=
  if h : i < n then v.set i (f v[i]) else v

/-- A list with the element at a position replaced by its image. -/
def lmod {α : Type} : List α → Nat → (α → α) → List α
  | [], _, _ => []
  | x :: xs, 0, f => f x :: xs
  | x :: xs, i + 1, f => x :: lmod xs i f

/-- Round-half-away division is not used by the part; division rounding to the nearest, half up, of naturals. -/
def divRound (a b : Nat) : Nat := (2 * a + b) / (2 * b)

/-- A number clamped to a range. -/
def clampInt (lo hi x : Int) : Int := max lo (min hi x)

end Sys2Proof.Machine
end

