-- ==== Sys2Proof/Machine/Cap.lean ====
section
/-!
DEFINITION. Sys2Proof/Machine/Cap.lean: the capability format of chapter 04: fields (R106), bounds (R110 to R113),
permissions (R114), kinds (R117), derivation (R118 to R121), far addresses (R131, R132) and the validity rule (R108).
-/
namespace Sys2Proof.Machine

/-- R106: the cursor. -/
def Cap.addr (c : Capv) : W64 := c.bits.extractLsb' 0 64
/-- R106: the permissions. -/
def Cap.perms (c : Capv) : BitVec 16 := c.bits.extractLsb' 64 16
/-- R106: the bounds exponent. -/
def Cap.e (c : Capv) : Nat := bits c.bits 85 80
/-- R106: the base mantissa. -/
def Cap.b (c : Capv) : Nat := bits c.bits 99 86
/-- R106: the length mantissa. -/
def Cap.t (c : Capv) : Nat := bits c.bits 113 100
/-- R106: the node of a far proxy. -/
def Cap.node (c : Capv) : BitVec 8 := c.bits.extractLsb' 114 8
/-- R106: the kind. -/
def Cap.kind (c : Capv) : Nat := bits c.bits 125 122

/-- An integer as a register value (R107). -/
def Cap.ofInt (w : W64) : Capv := ⟨w.zeroExtend 128, false⟩
/-- The null value: 0 with tag 0. -/
def Cap.null : Capv := ⟨0, false⟩
/-- A value with its tag cleared. -/
def Cap.untag (c : Capv) : Capv := { c with tag := false }
/-- A value with another cursor and the same tag. -/
def Cap.withAddr (c : Capv) (a : W64) : Capv := { c with bits := putBits c.bits 63 0 a.toNat }
/-- A value with other permissions. -/
def Cap.withPerms (c : Capv) (p : BitVec 16) : Capv := { c with bits := putBits c.bits 79 64 p.toNat }

/-! The permission bits of R114. -/
/-- LOAD. -/
def permLoad : Nat := 0
/-- STORE. -/
def permStore : Nat := 1
/-- EXEC. -/
def permExec : Nat := 2
/-- LOAD_CAP. -/
def permLoadCap : Nat := 3
/-- STORE_CAP. -/
def permStoreCap : Nat := 4
/-- SYS. -/
def permSys : Nat := 5
/-- FAR. -/
def permFar : Nat := 6
/-- DOOR. -/
def permDoor : Nat := 7
/-- GLOBAL. -/
def permGlobal : Nat := 8
/-- STALL. -/
def permStall : Nat := 9
/-- GRANT. -/
def permGrant : Nat := 10
/-- NOEXPORT. -/
def permNoExport : Nat := 11
/-- SETBOUNDS. -/
def permSetBounds : Nat := 12

/-- Whether a value carries a permission bit. -/
def Cap.has (c : Capv) (p : Nat) : Bool := (Cap.perms c).getLsbD p

/-- R110: base and top from the cursor and the bounds fields, in exact integers. -/
def boundsOf (a e b t : Nat) : Int × Int :=
  let am : Int := (a / 2 ^ e : Nat)
  let d : Int := (am - b) % 0x4000
  let d : Int := if d ≥ 0x3800 then d - 0x4000 else d
  let base := (am - d) * 2 ^ e
  (base, base + (t : Int) * 2 ^ e)

/-- R110: the base and top of a value. -/
def Cap.bounds (c : Capv) : Int × Int := boundsOf (Cap.addr c).toNat (Cap.e c) (Cap.b c) (Cap.t c)
/-- R110: the base. -/
def Cap.base (c : Capv) : Int := (Cap.bounds c).1
/-- R110: the top. -/
def Cap.top (c : Capv) : Int := (Cap.bounds c).2

/-- What R112's algorithm returns. -/
structure Enc where
  /-- Exponent. -/
  e : Nat
  /-- Base mantissa. -/
  b : Nat
  /-- Length mantissa. -/
  t : Nat
  /-- Rounded base. -/
  b0 : Nat
  /-- Rounded top. -/
  t0 : Nat
deriving DecidableEq, Repr

/-- R112: the loop from exponent e, with `fuel` further exponents to try. -/
def encodeFrom (reqBase reqTop : Nat) : Nat → Nat → Enc
  | fuel, e =>
    let b0 := reqBase - reqBase % 2 ^ e
    let t0 := reqTop + (2 ^ e - reqTop % 2 ^ e) % 2 ^ e
    if (t0 - b0) / 2 ^ e ≤ 0x3000 then ⟨e, b0 / 2 ^ e % 0x4000, (t0 - b0) / 2 ^ e, b0, t0⟩
    else match fuel with
      | 0 => ⟨e, b0 / 2 ^ e % 0x4000, (t0 - b0) / 2 ^ e, b0, t0⟩
      | fuel + 1 => encodeFrom reqBase reqTop fuel (e + 1)

/-- R112: the encoding of requested bounds; the loop ends by e = 51. -/
def encodeBounds (reqBase reqTop : Nat) : Enc := encodeFrom reqBase reqTop 51 0

/-- A value with other bounds fields. -/
def Cap.withBounds (c : Capv) (n : Enc) : Capv :=
  { c with bits := putBits (putBits (putBits c.bits 85 80 n.e) 99 86 n.b) 113 100 n.t }

/-- R111: whether an address lies in the representable window, clipped to 0 and 2^64. -/
def Cap.inWindow (c : Capv) (a : W64) : Bool :=
  let lo := Cap.base c - 0x800 * 2 ^ Cap.e c
  let hi := Cap.base c + 0x3800 * 2 ^ Cap.e c
  decide (lo ≤ (a.toNat : Int) ∧ (a.toNat : Int) < hi)

/-- R119: the cursor set, the tag cleared where the cursor leaves the window. -/
def Cap.setAddr (c : Capv) (a : W64) : Capv :=
  { Cap.withAddr c a with tag := c.tag && Cap.inWindow c a }

/-- R123 step 4: every byte of an access of `n` bytes at the cursor plus offset lies within bounds. -/
def Cap.inBounds (c : Capv) (a : Nat) (n : Nat) : Bool :=
  decide (Cap.base c ≤ (a : Int) ∧ (a : Int) + n ≤ Cap.top c)

/-- A tagged value of a kind with permissions, bounds and cursor, its bounds encoded by R112. -/
def Cap.make (kind : Nat) (perms : BitVec 16) (node : BitVec 8) (addr : W64) (n : Enc) : Capv :=
  ⟨putBits (putBits (putBits (putBits (putBits (putBits (addr.zeroExtend 128) 79 64 perms.toNat)
    85 80 n.e) 99 86 n.b) 113 100 n.t) 121 114 node.toNat) 125 122 kind, true⟩

/-- R109: the permissions of the boot root. -/
def bootRootPerms : BitVec 16 := 0x153F

/-- R109: the boot root, cursor 0: kind 0, base 0, top 2^64. -/
def Cap.bootRoot : Capv := Cap.make 0 bootRootPerms 0 0 ⟨51, 0, 0x2000, 0, 2 ^ 64⟩

/-- R118: the rights bits that CPERM may clear. -/
def rightsMask : BitVec 16 := 0x153F

/-- R118: the permissions after CPERM with a mask. -/
def cpermPerms (p mask : BitVec 16) : BitVec 16 :=
  (p &&& mask &&& rightsMask) ||| (p &&& 0x02C0) ||| ((p ||| mask) &&& 0x0800)

/-- R121, R122: the value as a door. -/
def Cap.asDoor (c : Capv) : Capv :=
  { c with bits := putBits (putBits c.bits 125 122 1) 71 71 1 }

/-- R122: the door as the PCC it sets: kind 0, DOOR clear. -/
def Cap.openDoor (c : Capv) : Capv :=
  { c with bits := putBits (putBits c.bits 125 122 0) 71 71 0 }

/-- R131: the far address that names an entry and an offset. -/
def farAddr (index : BitVec 16) (epoch gen : BitVec 8) (offset : W32) : W64 := index ++ epoch ++ gen ++ offset

/-- R132: the far capability made from an offer. -/
def Cap.far (node : BitVec 8) (index : BitVec 16) (epoch gen : BitVec 8) (len : Nat) (load store : Bool) : Capv :=
  let base := farAddr index epoch gen 0
  let perms : BitVec 16 := 0x1940 ||| (if load then 1 else 0) ||| (if store then 2 else 0)
  Cap.make 3 perms node base (encodeBounds base.toNat (base.toNat + len))

/-- R137: the grant receipt. -/
def Cap.receipt (index : BitVec 16) (epoch gen : BitVec 8) : Capv :=
  let base := farAddr index epoch gen 0
  Cap.make 4 0x0500 0 base (encodeBounds base.toNat base.toNat)

/-- R108: what every tagged value satisfies. -/
def Cap.valid (c : Capv) : Bool :=
  !c.tag ||
  (decide (Cap.e c ≤ 51) && decide (Cap.t c ≤ 0x3000) && decide (Cap.top c ≤ 2 ^ 64) &&
   Cap.inWindow c (Cap.addr c) && decide (Cap.kind c ≤ 4) && decide (bits c.bits 79 77 = 0) &&
   decide (bits c.bits 127 126 = 0) &&
   (Cap.has c permFar == decide (Cap.kind c = 3)) && (Cap.has c permDoor == decide (Cap.kind c = 1)) &&
   (Cap.has c permStall == decide (Cap.kind c = 2)) &&
   (decide (Cap.node c = 0) || decide (Cap.kind c = 3)))

/-- R107: the integer a register holds. -/
def Cap.int (c : Capv) : W64 := Cap.addr c

end Sys2Proof.Machine
end

