-- ==== Sys2Proof/Config.lean ====
section
/-!
DEFINITION. Sys2Proof/Config.lean: what the spec leaves open. Each constant here has no value: a statement that holds
holds for every value. A value that a command draws afresh is `freeWord` (or `freeByte`) applied to the counter
`State.freeCtr`, which the command advances; a value that an implementation fixes once is a function of what it depends
on. Log 10 lists them.
-/
namespace Sys2Proof

/-- A free value drawn by a command (log 10). -/
opaque Config.freeWord : Nat → W64
/-- A free byte drawn by a command: the counter and the byte's place (log 10). -/
opaque Config.freeByte : Nat → Nat → Byte
/-- A free choice drawn by a command (log 10). -/
opaque Config.freeBool : Nat → Bool
/-- What CGETBASE gives for a value whose base is no 64-bit number (R195 states none; log 45). -/
opaque Config.openBase : BitVec 128 → W64
/-- What CGETLEN gives for a value whose length exceeds 2^64 (R195 states none; log 45). -/
opaque Config.openLen : BitVec 128 → W64
/-- IDENT of the Sacristy core (R231 gives it no core and stall number; log 46). -/
opaque Config.sacIdent : W64
/-- The set of a cache that a line falls into, by the cache and the line; taken modulo the number of sets (R299 gives sizes and ways
only; log 35). -/
opaque Config.cacheSet : Nat → Nat → Nat
/-- The SECDED code over the 512 data bits of a line and POISON (R318 gives no code). -/
opaque Config.secded : List Byte → Bool → BitVec 11
/-- What follows FELRAK-SPAN in the info of a span key: both serials, the lower first, the lane index and the direction, true from the
lower serial (R326 does not give how they are written). -/
opaque Config.spanInfo : W64 → W64 → Nat → Bool → List Byte
/-- The contents of the Nave boot ROM, by address (R27; the spec gives no listing). -/
opaque Config.bootRom : Nat → Byte
/-- The contents of the Sacristy ROM, by address (R455; the spec gives no listing). -/
opaque Config.sacRom : Nat → Byte
/-- The two values of the Sacristy watchdog's sequence (R453 does not give them). -/
opaque Config.watchdogFirst : W32
/-- The second value of the watchdog's sequence (R453). -/
opaque Config.watchdogSecond : W32
/-- The low byte of the TYPE of a record of a range and a kind (R477 gives the ranges only). -/
opaque Config.logType : Nat → Nat → Byte
/-- The DATA of a record of a range and a kind about a number (R477: "12 bytes, per TYPE"). -/
opaque Config.logData : Nat → Nat → Nat → BitVec 96
/-- The counter word of given counts and sequence number (R489 gives its content and not its layout). -/
opaque Config.counterWord : Nat → Nat → Nat → Nat → BitVec 256
/-- The scrub descriptor word of an aisle and a sector with the CRC-32 of its copy (R497 gives its content and not its layout). -/
opaque Config.scrubWord : Nat → Nat → BitVec 32 → BitVec 256
/-- Whether a word of an aisle needs correction when it is read at a time (R486 says what a correction does, not when cells fail). -/
opaque Config.bitErrors : Nat → Nat → W64 → Bool
/-- R415: the bytes of the 64 × 64 test pattern of the self-test; the spec does not give them. -/
opaque Config.selfTestPattern : Nat → Byte
/-- R415: the known digest of the self-test, 12 words; the spec does not give it. -/
opaque Config.selfTestKnown : Nat → W32
/-- R413: where in the front end's region of the sealed partition an item stands: the input frame, the working image, the
background, the mask, the test pattern. The spec gives the region only. -/
opaque Config.frontAt : Nat → Nat
/-- Whether the Clerestory rounds a quotient up where it is not exact (R400, R408, R412 give no rounding). -/
opaque Config.roundUp : Nat → Nat → Bool

end Sys2Proof
end

