-- ==== Sys2Proof/Machine/RegMap.lean ====
section
/-!
DEFINITION. Sys2Proof/Machine/RegMap.lean: register space as data: where each block lies (R27, R28), which registers
have fields that a write changes, the access code of each such field (R7), its legal values (R13), its reset value and
the 64-bit pairs (R6). A field that hardware alone changes (RO) or that only acts (WO) needs no entry here: a write
leaves it (R10), and the unit's own file says what it reads and does.
-/
namespace Sys2Proof.Machine

/-- The access codes of R7 that let a write change what is stored. -/
inductive Acc where
  | rw | w1c | w1s
  /-- RWL with the number of its lock bit in the same register. -/
  | rwl (lock : Nat)
  /-- RW, but ignored while the bit of the same register is 1, as it stood before the write. -/
  | rwUnless (b : Nat)
deriving DecidableEq, Repr

/-- A field that a write can change: bits [hi:lo], and its legal values (R13). -/
structure Fld where
  /-- Highest bit. -/
  hi : Nat
  /-- Lowest bit. -/
  lo : Nat
  /-- Access. -/
  acc : Acc
  /-- Least legal value. -/
  mn : Nat := 0
  /-- Greatest legal value. -/
  mx : Nat := 2 ^ 32
deriving DecidableEq, Repr

/-- What a write does to one field of a stored word (R7, R10, R13). -/
def Fld.write (f : Fld) (old d cur : W32) : W32 :=
  let v := bits d f.hi f.lo
  match f.acc with
  | .rw => if f.mn ≤ v ∧ v ≤ f.mx then putBits cur f.hi f.lo v else cur
  | .w1c => cur &&& ~~~ (d &&& maskOf 32 f.hi f.lo)
  | .w1s => cur ||| (d &&& maskOf 32 f.hi f.lo)
  | .rwl k => if bit old k then cur else if f.mn ≤ v ∧ v ≤ f.mx then putBits cur f.hi f.lo v else cur
  | .rwUnless k => if bit old k then cur else if f.mn ≤ v ∧ v ≤ f.mx then putBits cur f.hi f.lo v else cur

/-- A 32-bit register: its reset value and the fields that a write can change. -/
structure RegSpec where
  /-- Reset value. -/
  reset : W32
  /-- Fields. -/
  flds : List Fld
deriving DecidableEq, Repr

/-- What a write leaves in a register: every field as it stood before the write decides (R7, R10). -/
def RegSpec.write (r : RegSpec) (old d : W32) : W32 := r.flds.foldl (fun cur f => f.write old d cur) old

/-- The W1C bits of a register. -/
def RegSpec.w1cMask (r : RegSpec) : W32 :=
  r.flds.foldl (fun m f => if f.acc = .w1c then m ||| maskOf 32 f.hi f.lo else m) 0

/-- A whole read-write word. -/
def fullRw : RegSpec := ⟨0, [⟨31, 0, .rw, 0, 2 ^ 32⟩]⟩

/-- A read-write field of any value. -/
def fRw (hi lo : Nat) : Fld := ⟨hi, lo, .rw, 0, 2 ^ 32⟩
/-- A read-write field with a range of legal values. -/
def fRg (hi lo mn mx : Nat) : Fld := ⟨hi, lo, .rw, mn, mx⟩
/-- Write-1-to-clear bits. -/
def fW1c (hi lo : Nat) : Fld := ⟨hi, lo, .w1c, 0, 2 ^ 32⟩
/-- Write-1-to-set bits. -/
def fW1s (hi lo : Nat) : Fld := ⟨hi, lo, .w1s, 0, 2 ^ 32⟩

/-- Unit n of the Nave peripheral space (R28). -/
def unitBase (n : Nat) : Nat := 0x20000000 + n * 0x10000
/-- Keys of the Sacristy's own address map (R455) lie above the 44-bit Nave addresses. -/
def sacSpace : Nat := 2 ^ 44

/-- Registers that stand alone, by offset. -/
def lookupReg (t : List (Nat × RegSpec)) (off : Nat) : Option RegSpec := AMap.get? t off

/-- SYSCTL (01, 03, 21). -/
def specSysctl (off : Nat) : Option RegSpec :=
  lookupReg [(0x18, ⟨0, [fW1c 22 0]⟩), (0x1C, ⟨0, [fW1c 22 0]⟩), (0x24, ⟨0, [fW1c 22 0]⟩),
    (0x30, ⟨0x00010001, [fW1c 12 12]⟩), (0x38, ⟨0, [fRw 22 0]⟩), (0x50, ⟨0, [fW1c 5 5]⟩),
    (0x54, ⟨0, [fRw 7 7, fRw 4 3]⟩)] off

/-- The interrupt router (08). -/
def specIntr (off : Nat) : Option RegSpec :=
  if off < 8 * 55 then
    if off % 8 = 0 then some ⟨1, [fRw 31 0]⟩
    else some ⟨if off / 8 = 44 ∨ off / 8 = 45 then 0x110 else 0x10, [fRg 6 4 1 6, fRw 0 0]⟩
  else none

/-- The stall scheduler configuration (05). -/
def specSched (off : Nat) : Option RegSpec :=
  if off < 0x100 then
    if off % 0x40 = 4 then some ⟨0, (List.range 8).map (fun n => fRw (4 * n + 2) (4 * n))⟩
    else if off % 0x40 = 8 then some ⟨0, [fRw 7 0]⟩
    else if off % 0x40 = 12 then some ⟨0, [fRw 23 0]⟩
    else none
  else if off = 0x100 then some fullRw
  else if off = 0x104 then some ⟨0, [fW1s 0 0]⟩
  else if 0x400 ≤ off ∧ off < 0x500 then some ⟨0x64, [fRw 15 0]⟩
  else none

/-- The Screen's registers other than its rules (10). -/
def specScr (off : Nat) : Option RegSpec :=
  lookupReg [(0x0, ⟨0, [fW1s 2 2, fW1s 1 1, ⟨0, 0, .rwl 1, 0, 1⟩]⟩), (0x4, ⟨0x6C0038, [fRw 23 0]⟩),
    (0x1C, ⟨0, [fW1c 1 1]⟩)] off

/-- The memory controller (11). -/
def specMem (off : Nat) : Option RegSpec :=
  lookupReg [(0x100, ⟨0x18, [fRg 7 0 1 168]⟩), (0x120, ⟨0, [fW1c 31 31, fW1c 29 29]⟩)] off

/-- A ring lane (12); `mx` is the highest rate mode of the variant. -/
def specLane (mx : Nat) (off : Nat) : Option RegSpec :=
  lookupReg [(0x0, ⟨BitVec.ofNat 32 mx, [fRw 7 7, fRw 4 4, fRg 1 0 0 mx]⟩), (0xC, ⟨0, [fRw 15 0]⟩)] off

/-- The ring switch (04, 12, 13). -/
def specRing (off : Nat) : Option RegSpec :=
  if 0x910 ≤ off ∧ off < 0x930 then some ⟨0, [fW1c 31 0]⟩
  else if 0xA00 ≤ off ∧ off < 0xB00 ∨ 0xC00 ≤ off ∧ off < 0xD00 then some fullRw
  else lookupReg [(0x18, ⟨0x0A0A, [fRw 15 8, fRw 7 0]⟩), (0x28, ⟨0, [fW1c 7 0]⟩),
    (0x100, ⟨0, [fRw 31 20]⟩), (0x104, ⟨0, [fRw 11 0]⟩),
    (0x108, ⟨0, [fRw 8 8, ⟨4, 0, .rwUnless 8, 4, 16⟩]⟩), (0x10C, ⟨0, [fW1c 8 8]⟩),
    (0x110, ⟨0, [fRw 31 15]⟩), (0x114, ⟨0, [fRw 11 0]⟩), (0x118, ⟨0, [fRw 8 8, ⟨3, 0, .rwUnless 8, 2, 10⟩]⟩),
    (0x120, ⟨0, [fRw 15 0]⟩), (0x124, ⟨0, [fW1c 0 0]⟩), (0x200, ⟨0x00C8000A, [fRw 31 16, fRw 7 0]⟩),
    (0x208, ⟨0x010000C8, [fRw 31 24, fRw 15 0]⟩), (0x20C, ⟨0x3D1, [fRw 15 0]⟩), (0x210, ⟨0x64, [fRw 15 0]⟩),
    (0x214, ⟨0xA, [fRw 5 0]⟩), (0x900, ⟨0, [fRw 3 0]⟩), (0x930, ⟨0, [fRw 7 0]⟩)] off

/-- A tenant port (14). -/
def specTp (off : Nat) : Option RegSpec :=
  if 0x4000 ≤ off ∧ off < 0x8000 then some ⟨0, [fRw 17 16, fRw 15 8, fRw 2 2, fRg 1 0 0 2]⟩
  else lookupReg [(0x0, ⟨0x05F20002, [fRg 31 16 64 9600, fRw 1 1, fRw 0 0]⟩), (0x4, ⟨0, [fW1c 11 8]⟩),
    (0x10, ⟨0x00400000, [fRw 31 16, fRw 15 0]⟩), (0x14, ⟨0x00400000, [fRw 31 16, fRw 15 0]⟩),
    (0x20, ⟨0, [fRw 31 12]⟩), (0x24, ⟨0, [fRw 11 0]⟩), (0x28, ⟨0, [fRw 8 8, ⟨3, 0, .rwUnless 8, 4, 12⟩]⟩),
    (0x30, ⟨0, [fRw 15 0]⟩), (0x40, ⟨0, [fRw 31 12]⟩), (0x44, ⟨0, [fRw 11 0]⟩),
    (0x48, ⟨0, [fRw 8 8, ⟨3, 0, .rwUnless 8, 4, 12⟩]⟩), (0x50, ⟨0, [fRw 15 0]⟩)] off

/-- The cipher engine (14). -/
def specCph (off : Nat) : Option RegSpec :=
  if 0x100 ≤ off ∧ off < 0x200 then
    if off % 16 = 0 then some ⟨0, [fRw 31 6]⟩ else if off % 16 = 4 then some ⟨0, [fRw 11 0]⟩ else none
  else lookupReg [(0x4, ⟨0, [fW1c 15 0]⟩)] off

/-- The Clerestory (15). -/
def specClr (off : Nat) : Option RegSpec :=
  if 0x100 ≤ off ∧ off < 0x124 then some fullRw
  else if 0x140 ≤ off ∧ off < 0x15C then some ⟨0, [fRw 15 0]⟩
  else if 0x200 ≤ off ∧ off < 0x400 then
    if off % 0x20 < 0x10 then some ⟨0, [fRw 26 16, fRw 10 0]⟩
    else if off % 0x20 = 0x10 then some ⟨0, [fRw 0 0]⟩ else none
  else lookupReg [(0x4, ⟨0, [fW1c 15 13]⟩),
    (0x10, ⟨0, [fRw 26 24, fRw 20 20, fRw 17 16, fRw 12 12, fRw 9 8, fRw 5 0]⟩), (0x14, ⟨0, [fRw 27 16, fRw 11 0]⟩),
    (0x18, ⟨0, [fRw 31 24, fRw 23 16, fRw 15 8, fRw 2 1, fRw 0 0]⟩), (0x1C, ⟨0, [fRw 23 16, fRw 7 0]⟩),
    (0x20, ⟨0x00100420, [fRw 31 16, fRw 11 8, fRw 7 0]⟩), (0x24, ⟨60, [fRg 11 0 1 3600]⟩), (0x28, ⟨15, [fRw 7 0]⟩),
    (0x30, ⟨0, [fRw 31 12]⟩), (0x34, ⟨0, [fRw 11 0]⟩), (0x38, ⟨0, [fRw 8 8, ⟨3, 0, .rwUnless 8, 4, 12⟩]⟩),
    (0x40, ⟨0, [fRw 15 0]⟩), (0x80, ⟨0, [fRw 31 6]⟩), (0x84, ⟨0, [fRw 11 0]⟩), (0x88, ⟨0, [fRw 24 0]⟩),
    (0x90, ⟨0, [fRw 31 6]⟩), (0x94, ⟨0, [fRw 11 0]⟩), (0x98, ⟨0, [fRw 24 0]⟩)] off

/-- The timer block (16): GT pages at 0x0000, ED pages at 0x1000, LP pages at 0x2000, common registers at 0x3000. -/
def specTmr (off : Nat) : Option RegSpec :=
  if off < 0x1000 then
    lookupReg [(0x0, ⟨0, [fRw 31 24, fRw 10 8, fRw 7 7, fRw 6 6, fRw 5 5, fRw 4 4, fRw 3 3, fW1s 2 2, fRw 1 1, fRw 0 0]⟩),
      (0x4, ⟨0, [fW1c 8 8, fW1c 2 0]⟩), (0x8, fullRw), (0x18, fullRw), (0x1C, fullRw), (0x20, fullRw),
      (0x24, ⟨0, [fRg 10 8 0 4, fRg 5 0 0 0x2F]⟩), (0x28, ⟨0, [fRw 4 3, fRw 2 0]⟩)] (off % 0x100)
  else if off < 0x2000 then
    lookupReg [(0x0, ⟨0, [fRw 23 16, fRw 9 8, fRw 4 0]⟩), (0x4, ⟨0, [fRw 23 0]⟩), (0x8, ⟨0, [fW1c 9 8]⟩)] (off % 0x100)
  else if off < 0x2800 then
    lookupReg [(0x0, ⟨0, [fRw 15 12, fRw 4 4, fRw 3 3, fW1s 2 2, fRw 1 1, fRw 0 0]⟩), (0xC, ⟨0, [fRw 15 0]⟩),
      (0x10, ⟨0, [fRw 19 0]⟩), (0x14, ⟨0, [fW1c 1 0]⟩)] (off % 0x100)
  else lookupReg [(0x3000, ⟨0, [fRw 3 3]⟩), (0x3004, ⟨0, [fW1c 2 1]⟩), (0x3008, fullRw), (0x300C, fullRw)] off

/-- Lamp outputs and DALI (16). -/
def specLamp (off : Nat) : Option RegSpec :=
  lookupReg [(0x4, ⟨0, [fRw 1 0]⟩), (0x8, ⟨0, [fRw 16 16, fRw 9 0]⟩),
    (0x10, ⟨0, [fRg 30 28 1 5, fRw 27 27, fRw 24 24, fRw 23 0]⟩), (0x14, ⟨0, [fW1c 9 9, fW1c 4 4]⟩)] off

/-- Low-speed I/O (23). -/
def specLsio (off : Nat) : Option RegSpec :=
  if off < 0x300 then
    lookupReg [(0x0, ⟨0x1900, [fRw 0 0, fRg 2 1 0 2, fRw 15 8]⟩), (0xC, ⟨0, [fW1c 4 1]⟩), (0x10, ⟨0, [fRw 4 1]⟩)] (off % 0x100)
  else if 0x400 ≤ off ∧ off < 0x600 then
    lookupReg [(0x0, ⟨0x800, [fRw 0 0, fRw 2 1, fRw 3 3, fRg 15 8 2 255]⟩), (0xC, ⟨0, [fW1c 1 1]⟩), (0x10, ⟨0, [fRw 1 1]⟩)] (off % 0x100)
  else if 0x800 ≤ off ∧ off < 0xA00 then
    lookupReg [(0x0, ⟨0, [fRw 0 0, fRw 1 1, fRg 3 2 0 2, fRw 4 4, fRw 5 5]⟩), (0x4, ⟨0x1B20, [fRg 21 6 1 65535, fRw 5 0]⟩),
      (0x10, ⟨0, [fW1c 2 2]⟩), (0x14, ⟨0, [fRw 2 0]⟩)] (off % 0x100)
  else if 0xC00 ≤ off ∧ off < 0xC80 then
    some ⟨0x400, [fRg 1 0 0 2, fRw 6 2, fRw 8 8, fRg 10 9 0 2, fRw 13 12]⟩
  else lookupReg [(0xC80, fullRw), (0xC90, ⟨0, [fW1c 31 0]⟩), (0xC94, fullRw)] off

/-- The flash controllers of the Sacristy (18), at 0x0301_0000 and 0x0301_1000. -/
def specFl (off : Nat) : Option RegSpec :=
  if 0x100 ≤ off ∧ off < 0x200 then some fullRw
  else lookupReg [(0x0, ⟨0, [fRg 9 8 1 3, fRw 6 4, fRg 3 0 1 5]⟩), (0x4, ⟨0, [fRw 22 5]⟩),
    (0x8, ⟨0, [fW1c 8 8, fW1c 1 1]⟩), (0xC, ⟨0, [fRw 10 0]⟩)] off

/-- The register at a key, with the highest lane rate of the variant and the role. -/
def regSpec (rate : Nat) (a : Nat) : Option RegSpec :=
  if a < 0x20000000 then none
  else if a < 0x30000000 then
    let off := a % 0x10000
    match (a - 0x20000000) / 0x10000 with
    | 0x00 => specSysctl off
    | 0x01 => specIntr off
    | 0x02 => specSched off
    | 0x03 => specScr off
    | 0x04 => specMem off
    | 0x08 => specLane rate off
    | 0x09 => specLane rate off
    | 0x0A => specLane rate off
    | 0x0B => specLane rate off
    | 0x0C => specRing off
    | 0x10 => specTp off
    | 0x11 => specTp off
    | 0x12 => specTp off
    | 0x13 => specTp off
    | 0x18 => specCph off
    | 0x20 => specClr off
    | 0x28 => specTmr off
    | 0x29 => specLamp off
    | 0x30 => specLsio off
    | _ => none
  else if sacSpace + 0x03010000 ≤ a ∧ a < sacSpace + 0x03012000 then specFl (a % 0x1000)
  else none

/-- The reset value of the register at a key (the reset lines of the chapters). -/
def regReset (rate : Nat) (gateway : Bool) (a : Nat) : W32 :=
  if a = 0x20000054 then (if gateway then 0 else 1) else
  match regSpec rate a with
  | some r => r.reset
  | none => 0

/-- The low words of the 64-bit pairs (R6), by unit and offset. -/
def isPairLow (a : Nat) : Bool :=
  let off := a % 0x10000
  if a < 0x20000000 then false
  else if a < 0x30000000 then
    match (a - 0x20000000) / 0x10000 with
    | 0x00 => off == 0x48 || off == 0x58
    | 0x02 => decide (0x800 ≤ off ∧ off < 0xA00 ∧ off % 8 = 0)
    | 0x03 => off == 0x8 || off == 0x10
    | 0x04 => [0x8, 0x10, 0x28, 0x30, 0x108, 0x110, 0x118].contains off
    | 0x08 => decide (0x10 ≤ off ∧ off ≤ 0x30 ∧ off % 8 = 0)
    | 0x09 => decide (0x10 ≤ off ∧ off ≤ 0x30 ∧ off % 8 = 0)
    | 0x0A => decide (0x10 ≤ off ∧ off ≤ 0x30 ∧ off % 8 = 0)
    | 0x0B => decide (0x10 ≤ off ∧ off ≤ 0x30 ∧ off % 8 = 0)
    | 0x0C => [0x8, 0x20, 0x100, 0x110, 0x128].contains off || decide (0x300 ≤ off ∧ off < 0x390 ∧ off % 8 = 0)
    | 0x10 => [0x20, 0x40, 0x60].contains off || decide (0x100 ≤ off ∧ off < 0x160 ∧ off % 8 = 0)
    | 0x11 => [0x20, 0x40, 0x60].contains off || decide (0x100 ≤ off ∧ off < 0x160 ∧ off % 8 = 0)
    | 0x12 => [0x20, 0x40, 0x60].contains off || decide (0x100 ≤ off ∧ off < 0x160 ∧ off % 8 = 0)
    | 0x13 => [0x20, 0x40, 0x60].contains off || decide (0x100 ≤ off ∧ off < 0x160 ∧ off % 8 = 0)
    | 0x18 => decide (0x100 ≤ off ∧ off < 0x200 ∧ off % 16 = 0)
    | 0x20 => [0x30, 0x80, 0x90].contains off || decide (0x400 ≤ off ∧ off < 0x450 ∧ off % 8 = 0)
    | 0x28 => decide (0x1000 ≤ off ∧ off < 0x2000 ∧ (off % 0x100 = 0x10 ∨ off % 0x100 = 0x18 ∨ off % 0x100 = 0x20)) ||
        off == 0x3008
    | _ => false
  else decide (sacSpace + 0x03010000 ≤ a ∧ a < sacSpace + 0x03012000 ∧ (a % 0x1000 = 0x18 ∨ a % 0x1000 = 0x20))

/-! Register addresses, by name. -/
/-- SYSCTL_READY_RISE. -/
def aRise : Nat := 0x20000018
/-- SYSCTL_READY_FALL. -/
def aFall : Nat := 0x2000001C
/-- SYSCTL_ABSENT_SEEN. -/
def aSeen : Nat := 0x20000020
/-- SYSCTL_EARLY. -/
def aEarly : Nat := 0x20000024
/-- SYSCTL_READY. -/
def aReady : Nat := 0x20000014
/-- SYSCTL_RESET_CAUSE. -/
def aCause : Nat := 0x20000030
/-- SYSCTL_PARK. -/
def aPark : Nat := 0x20000038
/-- SYSCTL_LEDGER. -/
def aLedger : Nat := 0x2000003C
/-- SYSCTL_LEDGER_WAIT. -/
def aWait : Nat := 0x20000040
/-- SYSCTL_TT_STATUS. -/
def aTtStatus : Nat := 0x20000050
/-- SYSCTL_TT_CTRL. -/
def aTtCtrl : Nat := 0x20000054
/-- SYSCTL_DERATE. -/
def aDerate : Nat := 0x20000060
/-- INTR_TARGET_n. -/
def aTarget (n : Nat) : Nat := 0x20010000 + 8 * n
/-- INTR_MODE_n. -/
def aMode (n : Nat) : Nat := 0x20010004 + 8 * n
/-- INTR_LKD_STATUS. -/
def aLkdStatus : Nat := 0x20010200
/-- INTR_LKD_REC_k. -/
def aLkdRec (k : Nat) : Nat := 0x20010300 + 4 * k
/-- SCHED_MISS of a core. -/
def aMiss (c : Nat) : Nat := 0x20020008 + 0x40 * c
/-- SCHED_QUANTUM of a core. -/
def aQuantum (c : Nat) : Nat := 0x2002000C + 0x40 * c
/-- SCHED_ENCLOSE. -/
def aEnclose : Nat := 0x20020100
/-- SCHED_ENCLOSE_CTRL. -/
def aEncCtrl : Nat := 0x20020104
/-- SCHED_LIMIT_n. -/
def aLimit (n : Nat) : Nat := 0x20020400 + 4 * n
/-- SCHED_LIMITED_n. -/
def aLimited (n : Nat) : Nat := 0x20020800 + 8 * n
/-- SCR_CTRL. -/
def aScrCtrl : Nat := 0x20030000
/-- SCR_DEFAULT. -/
def aScrDefault : Nat := 0x20030004
/-- SCR_DENY_COUNT. -/
def aScrDeny : Nat := 0x20030008
/-- SCR_LOG_CTRL. -/
def aScrLog : Nat := 0x2003001C
/-- SCR_BASE_n. -/
def aScrBase (n : Nat) : Nat := 0x20030100 + 0x10 * n
/-- SCR_LIMIT_n. -/
def aScrLimit (n : Nat) : Nat := 0x20030104 + 0x10 * n
/-- SCR_RIGHTS_n. -/
def aScrRights (n : Nat) : Nat := 0x20030108 + 0x10 * n
/-- SCR_ATTR_n. -/
def aScrAttr (n : Nat) : Nat := 0x2003010C + 0x10 * n
/-- MEM_CH_BASE_c. -/
def aChBase (c : Nat) : Nat := 0x20040008 + 0x20 * c
/-- MEM_CH_SIZE_c. -/
def aChSize (c : Nat) : Nat := 0x20040010 + 0x20 * c
/-- MEM_CE_COUNT. -/
def aMemCe : Nat := 0x20040108
/-- MEM_UE_COUNT. -/
def aMemUe : Nat := 0x20040110
/-- MEM_ERR_ADDR. -/
def aMemErrAddr : Nat := 0x20040118
/-- MEM_ERR_INFO. -/
def aMemErrInfo : Nat := 0x20040120
/-- A register of lane n. -/
def aLane (n off : Nat) : Nat := 0x20080000 + n * 0x10000 + off
/-- A register of the ring switch. -/
def aRing (off : Nat) : Nat := 0x200C0000 + off
/-- A register of tenant port n. -/
def aTp (n off : Nat) : Nat := 0x20100000 + n * 0x10000 + off
/-- A register of the cipher engine. -/
def aCph (off : Nat) : Nat := 0x20180000 + off
/-- A register of the Clerestory. -/
def aClr (off : Nat) : Nat := 0x20200000 + off
/-- A register of the page of GTn. -/
def aGt (n off : Nat) : Nat := 0x20280000 + 0x100 * n + off
/-- A register of the page of EDn. -/
def aEd (n off : Nat) : Nat := 0x20281000 + 0x100 * n + off
/-- A register of the page of LPn. -/
def aLp (n off : Nat) : Nat := 0x20282000 + 0x100 * n + off
/-- A common register of the timer block. -/
def aTmr (off : Nat) : Nat := 0x20280000 + off
/-- A register of the lamp interface. -/
def aLamp (off : Nat) : Nat := 0x20290000 + off
/-- A register of low-speed I/O. -/
def aLsio (off : Nat) : Nat := 0x20300000 + off
/-- A register of the flash controller of an aisle. -/
def aFl (aisle off : Nat) : Nat := sacSpace + 0x03010000 + 0x1000 * aisle + off
/-- R27: the DRAM window, 0x010_0000_0000 to 0x013_FFFF_FFFF. -/
def aDram : Nat := 0x1000000000
/-- The Hatch shared window. -/
def aWindow : Nat := 0x30000000

end Sys2Proof.Machine
end

