-- ==== Sys2Proof/Machine/State.lean ====
section
/-!
DEFINITION. Sys2Proof/Machine/State.lean: the state of the package as plain data, the faults and refusals of a step, and
the state right after power-on reset. Each field names the rule of the spec that gives it, its width and its value
at reset. Registers that are no field of their own stand in `State.regs` by address; the values they have at reset are
those of `regReset` (Machine/RegMap.lean).
-/
namespace Sys2Proof.Machine

/-! ## Identity, straps and start (chapters 00 to 03) -/

/-- The three variants of the family (R1). -/
inductive Variant where
  | hkw910 | hkw730 | hkw530
deriving DecidableEq, Repr

/-- What the part and its board are, fixed at manufacture: the fuses (R1, SYSCTL_ID, RING_SERIAL) and the DRAM devices fitted. -/
structure Chip where
  /-- R1 (00): the variant; reset HKW-910, DESIGN CHOICE (log 2). -/
  variant : Variant
  /-- SYSCTL_ID.NAVE_REV (01): 8 bits, fuse; reset 1, DESIGN CHOICE (log 2). -/
  naveRev : BitVec 8
  /-- SYSCTL_ID.SAC_REV (01): 8 bits, fuse; reset 1, DESIGN CHOICE (log 2). -/
  sacRev : BitVec 8
  /-- RING_SERIAL (12): 64 bits, fuse; reset 1, DESIGN CHOICE (log 2). -/
  serial : BitVec 64
  /-- R312, R317 (11): the DRAM device fitted on each channel, as its mode registers report it; reset one of 4 GiB in one rank on
  both, DESIGN CHOICE (log 2). -/
  dram : Vector (Option DramDevice) 2
deriving DecidableEq, Repr

/-- The strap balls as sampled at the release of power-on reset (R51). -/
structure Straps where
  /-- R53 (02): BOOTSEL[1:0], 2 bits; reset 0 until sampled, DESIGN CHOICE (log 3). -/
  bootsel : BitVec 2
  /-- R17, R18 (01): the level of ROLE, 1 bit; reset 0 until sampled, DESIGN CHOICE (log 3). -/
  role : Bool
  /-- R54 (02): the level of TESTEN_N, 1 bit; reset 1 until sampled, DESIGN CHOICE (log 3). -/
  testenN : Bool
deriving DecidableEq, Repr

/-- How far the Sacristy has come in the cold start (R81, steps 1 to 6). -/
inductive SacPhase where
  /-- Power-on reset is held. -/
  | porHeld
  /-- Step 3: power-on reset is released; the ROM runs. -/
  | rom
  /-- Step 4: the self-tests have passed. -/
  | tested
  /-- Step 5: the vigil path is armed. -/
  | armed
  /-- Step 6: the firmware runs. -/
  | running
  /-- A Sacristy reset is in progress (R103). -/
  | inReset
deriving DecidableEq, Repr

/-- How far the Nave die has come in its start (R81, steps 7 to 11). -/
inductive NavePhase where
  /-- The die is down or in reset and step 7 has not passed. -/
  | down
  /-- Step 7: the image is verified. -/
  | verified
  /-- Steps 8 to 10: rails up, Nave base started. -/
  | base
  /-- Step 11 and after: NC0 has left reset. -/
  | running
deriving DecidableEq, Repr

/-- The power stage, the rails, the ledger and the admission of units (chapter 03). -/
structure Power where
  /-- R68: VIN has passed VIN_ON since the last VIN_POR, 1 bit; reset 0. -/
  vinOn : Bool
  /-- R68: brown-out, 1 bit; reset 0. -/
  brownOut : Bool
  /-- R69: an undervoltage waits for VIN at VIN_BO_CLR for 10 ms, 1 bit; reset 0. -/
  uvWait : Bool
  /-- R81: the Sacristy's step of the start; reset porHeld. -/
  sacPhase : SacPhase
  /-- R82: the vigil path is armed, 1 bit; reset 0. -/
  vigilArmed : Bool
  /-- R81: the Nave's step of the start; reset down. -/
  navePhase : NavePhase
  /-- R68, R69: VIN has not passed VIN_BO_CLR since it was last below VIN_POR, 1 bit; reset 1. -/
  boWait : Bool
  /-- R72: VPRE is up (VIN is at or above VIN_POR), 1 bit; reset 0. -/
  vpre : Bool
  /-- R74: the rails that VBUCK and what it feeds have in range, in the order in which they rose; reset none. -/
  rails : List Rail
  /-- R88: a power cycle waits for NAVE_RAIL_RESTART, 1 bit; reset 0. -/
  cycleWait : Bool
  /-- R74: DDR0_RESET_N and DDR1_RESET_N, 2 bits; reset 0 (low). -/
  ddrResetN : BitVec 2
  /-- R508: the boot ROM has the image of the boot descriptor still to copy and to enter, 1 bit; reset 0. -/
  booting : Bool
  /-- R44: the voltages found on banks A to D; reset open. -/
  banks : Vector BankVolt 4
  /-- R93: the 25 MHz reference is good, 1 bit; reset 0 (not yet confirmed). -/
  refGood : Bool
  /-- R93: the reference was confirmed or declared lost since power-on reset, 1 bit; reset 0. -/
  refJudged : Bool
  /-- R94: SREFCLK is within limits, 1 bit; reset 1, DESIGN CHOICE (log 4). -/
  srefGood : Bool
  /-- R55, R102: the level of EXT_RST_N, 1 bit; reset 1 (pull-up). -/
  extRstN : Bool
  /-- R76: VIN in millivolts at the last evaluation; reset 0 before the first, DESIGN CHOICE (log 38). -/
  vinMv : Nat
  /-- R76: the ledger budget in 10 mW as last evaluated; reset 0 before the first evaluation, DESIGN CHOICE (log 38). -/
  budget : Nat
  /-- R77: the unit that is in its start phase, if any; reset none. -/
  starting : Option (Fin 23)
  /-- R76: units that hold their running allowance, 23 bits; reset 0. -/
  started : BitVec 23
  /-- R77: units that still have to be admitted, 23 bits; reset 0. -/
  toStart : BitVec 23
  /-- R78, R85: units out of service until the next Nave start, 23 bits; reset 0. -/
  outUntilStart : BitVec 23
  /-- R103: admission of units is paused by a Sacristy reset, 1 bit; reset 0. -/
  admitPaused : Bool
  /-- R101: causes recorded for the next Nave start, bits as SYSCTL_RESET_CAUSE[11:0]; reset 1 (POWER_ON). -/
  nextCauses : BitVec 12
  /-- SYSCTL_RESET_CAUSE.STARTS: Nave starts since power-on reset, 8 bits, saturating; reset 0 before the first start. -/
  starts : BitVec 8
  /-- R92: islands that hold their handshakes while their clock relocks; reset none. -/
  relocking : List Island
  /-- R104: causes of the Sacristy reset in progress, or not yet recorded, 3 bits (lockstep, watchdog, request); reset 0. -/
  sacCauses : BitVec 3
  /-- R104: causes of the last power-on reset, 2 bits (VIN below VIN_POR, a VSAC rail); reset 1. -/
  porCauses : BitVec 2
deriving DecidableEq, Repr

/-- R74: the rails that rise in step 8 (VBUCK) and step 9, in their order; they fall in the reverse order. -/
def naveRails : List Rail :=
  [.vbuck, .vddNave, .vddaSd, .vddtSd, .vddqPhy, .vddDphy, .v18Out, .v33Out, .dramVdd1, .dramVdd2h, .dramVdd2l, .dramVddq]

/-- R74: every Nave rail is up. -/
def Power.railsUp (p : Power) : Bool := p.rails == naveRails

/-- Town time (R95 to R100). -/
structure TownTime where
  /-- R95: the counter in the timer island, 64 bits; reset 0. -/
  now : BitVec 64
  /-- R95: the rate trim in parts per billion, between −500,000 and 500,000; reset 0. -/
  trimPpb : Int
  /-- R95: the trimmed fraction of a nanosecond not yet counted, in units of 10⁻⁹ ns; reset 0. -/
  frac : Int
  /-- R97: a value committed to SYSCTL_TT_SET that waits for PPS_IN; reset none. -/
  setWait : Option (BitVec 64)
  /-- R98: PPS_OUT, 1 bit; reset 0 (L). -/
  ppsOut : Bool
  /-- R100: a source is in use (a measurement has been taken since it was last lost), 1 bit; reset 0. -/
  inUse : Bool
  /-- R99: the Sacristy's copy, 64 bits; reset 0. -/
  sac : BitVec 64
  /-- R99: the copy has been synchronised since power-on reset, 1 bit; reset 0. -/
  sacSynced : Bool
deriving DecidableEq, Repr

/-! ## Memory, the Screen and the memory controller (chapters 04, 10, 11) -/

/-- Memory of bytes, keys strictly rising and no entry 0: an unlisted byte of Close SRAM or DRAM reads 0
(R81 step 10, R314: both are cleared at every Nave start). -/
abbrev Memory := List Host.Cell

/-- The states of an LPDDR channel (MEM_CH_STATUS_c.STATE). -/
inductive ChState where
  | notStarted | training | ready | none | failed | parked
deriving DecidableEq, Repr

/-- One LPDDR channel (R312 to R317). -/
structure Chan where
  /-- MEM_CH_STATUS_c.STATE (11): 4 bits; reset 0 (not started). -/
  state : ChState
  /-- R317 (11): what the mode registers report, once read; reset none. -/
  dev : Option DramDevice
  /-- R315 (11): the device temperature status last read, 8 bits; reset 0, DESIGN CHOICE (log 5). -/
  temp : BitVec 8
deriving DecidableEq, Repr

/-- A committed Screen rule that checks may still use after a newer commit (R292). -/
structure OldRule where
  /-- BASE. -/
  base : BitVec 32
  /-- LIMIT. -/
  limit : BitVec 32
  /-- RIGHTS. -/
  rights : BitVec 32
  /-- ATTR. -/
  attr : BitVec 32
  /-- The initiators (cores 0 to 3, others 8 + class) whose checks have used the new rule. -/
  newSeen : List Nat
deriving DecidableEq, Repr

/-- A record of the Screen log (R298). -/
structure ScrRec where
  /-- SCR_LOG_ADDR. -/
  addr : BitVec 44
  /-- SCR_LOG_INFO, with VALID. -/
  info : BitVec 32
deriving DecidableEq, Repr

/-- The Screen beyond its registers (chapter 10). -/
structure Screen where
  /-- R289: pending BASE copies, 32 × 32 bits; reset 0. -/
  pendBase : Vector (BitVec 32) 32
  /-- R289: pending LIMIT copies, 32 × 32 bits; reset 0. -/
  pendLimit : Vector (BitVec 32) 32
  /-- R289: pending RIGHTS copies, 32 × 32 bits; reset 0. -/
  pendRights : Vector (BitVec 32) 32
  /-- R292: rules whose newest commit is not yet in effect, with the rule before it; reset none. -/
  old : List (Nat × OldRule)
  /-- R298: the log, oldest first, at most 8 records; reset empty. -/
  log : List ScrRec
deriving DecidableEq, Repr

/-- Memory and everything that lies beside its bytes (chapters 04 and 11). -/
structure Mem where
  /-- R27: the bytes of Close SRAM, DRAM, the Hatch shared window and Sacristy RAM; reset nothing listed. -/
  cells : Memory
  /-- R106, R129: granules (address / 16) whose tag is 1, rising; reset none. -/
  tags : List Nat
  /-- R307: poisoned DRAM lines (address / 64), rising; reset none. -/
  poisonLines : List Nat
  /-- R307, R455: poisoned granules (address / 16) of Close SRAM and of the Sacristy's RAM, rising; reset none. -/
  poisonGranules : List Nat
  /-- R307, R455: errors that lie in a copy of a line of DRAM (address / 64) or in a granule (address / 16), in the store that SOURCE
  names, and that nothing has met yet; reset none. -/
  latent : List (Nat × MemErr)
  /-- R307: DRAM tag lines (address / 8192) that are uncorrectable and no access has met yet; reset none. -/
  latentTags : List Nat
  /-- R318: DRAM lines (address / 64) whose check slot's STATE is 0b11, rising: the others are fresh; reset none. -/
  written : List Nat
  /-- R312 to R317: the two channels; reset not started. -/
  chan : Vector Chan 2
  /-- R317: the DRAM map has been fixed at step 12, 1 bit; reset 0. -/
  mapFixed : Bool
deriving DecidableEq, Repr

/-- A line that a cache holds (R299). The bytes and tags of a line of DRAM stand once, in `Mem`: R301 gives every initiator one
view of them, and only which copies exist is the caches' own. -/
structure CacheLine where
  /-- The line: address / 64; in the tag cache address / 8192 and in the check cache address / 2048 of the lines it serves. -/
  line : Nat
  /-- It is newer than the store behind it. -/
  dirty : Bool
deriving DecidableEq, Repr

/-- The caches of the Nave die (R299). -/
structure Caches where
  /-- L1 instruction caches, 32 KiB for each core; reset empty. -/
  l1i : Vector (List CacheLine) 4
  /-- L1 data caches, 32 KiB for each core; reset empty. -/
  l1d : Vector (List CacheLine) 4
  /-- The L2, 4 MiB; reset empty. -/
  l2 : List CacheLine
  /-- R129 (04): the tag cache, 64 KiB; reset empty. -/
  tagc : List CacheLine
  /-- The check cache, 32 KiB; reset empty. -/
  chkc : List CacheLine
deriving DecidableEq, Repr

/-! ## Stalls and cores (chapters 05 to 09) -/

/-- The states of a stall (R146). -/
inductive StallState where
  | off | ready | running | waiting | far | miss | stopped | halted | lockdown
deriving DecidableEq, Repr

/-- One physical window (R148). -/
structure Win where
  /-- P0 to P7, 129 bits each; reset 0. -/
  p : Vector Capv 8
  /-- X0 to X7, 129 bits each; reset 0. -/
  x : Vector Capv 8
deriving DecidableEq, Repr

/-- An exception as raised, with what its frame records (R241 to R243). -/
structure Exc where
  /-- The vector (R235). -/
  vec : Nat
  /-- CAUSE.N. -/
  n : Nat
  /-- FADDR. -/
  faddr : BitVec 64
  /-- INSN. -/
  insn : BitVec 32
  /-- DETAIL. -/
  detail : BitVec 64
deriving DecidableEq, Repr

/-- A store held in a store buffer (R221, R183). -/
structure BufStore where
  /-- Physical address of the first byte. -/
  pa : BitVec 44
  /-- The bytes. -/
  data : List (BitVec 8)
  /-- The tag that its granule takes (R125). -/
  tag : Bool
  /-- The ATTR delivered with it (R304). -/
  attr : BitVec 3
  /-- R304: merged with the store before it, of the same line: the two become visible together. -/
  merged : Bool
deriving DecidableEq, Repr

/-- A squint access that waits (R162). -/
structure SquintReq where
  /-- The value of SQUINT at the MVSQ. -/
  sel : BitVec 64
  /-- The destination of a read, or the value of a write. -/
  op : Sum (BitVec 5) Capv
  /-- The instruction word. -/
  insn : BitVec 32
deriving DecidableEq, Repr

/-- The phases of a far access at the requester (R369, R370). -/
inductive FarPhase where
  | sent | backoff | querying | held
deriving DecidableEq, Repr

/-- A far access in flight (chapter 13). -/
structure FarOp where
  /-- R370: where the access stands. -/
  phase : FarPhase
  /-- Target node. -/
  node : BitVec 8
  /-- The cursor: INDEX, EPOCH, GEN, OFFSET (R131). -/
  ea : BitVec 64
  /-- Bytes: 1, 2, 4, 8 or 64. -/
  size : Nat
  /-- A store's data, or the load's kind: destination and sign extension. -/
  store : Option (List (BitVec 8))
  /-- Destination of a load. -/
  dest : BitVec 5
  /-- The load is sign-extended. -/
  sext : Bool
  /-- The TSEQ value of the transaction. -/
  tseq : BitVec 8
  /-- BUSY retries made. -/
  busy : Nat
  /-- QUERY frames sent since the last answer. -/
  queries : Nat
  /-- The instruction word. -/
  insn : BitVec 32
deriving DecidableEq, Repr

/-- One execution context: a stall of the Nave, or the Sacristy core (R148, R231). -/
structure Stall where
  /-- R146 (05): state code, 4 bits; reset RUNNING for ST0 of NC0, OFF for the others (R147). -/
  state : StallState
  /-- R167 (05): priority, 3 bits; reset 0. -/
  prio : BitVec 3
  /-- R148 (05): S0 to S7, 129 bits each; reset 0, S0 of NC0 ST0 the boot root (R109). -/
  s : Vector Capv 8
  /-- R148 (05): the sixteen physical windows; reset 0. -/
  win : Vector Win 16
  /-- R148 (05): the eight base entry registers, 129 bits each; reset 0. -/
  base : Vector Capv 8
  /-- R231 (07): PCC, 129 bits; reset 0, the boot root in NC0 ST0 (R109). -/
  pcc : Capv
  /-- R237 (08): SR, 32 bits: SGT, SGX, HOLD, ML; reset 0. -/
  sr : BitVec 32
  /-- R240 (08): TSBR, 129 bits; reset 0. -/
  tsbr : Capv
  /-- R269 (09): SHUT, 32 bits; reset 0. -/
  shut : BitVec 32
  /-- R150 (05): WPTR, 0 to 15; reset 0. -/
  wptr : Nat
  /-- R150 (05): LIVE, 1 to 16; reset 1. -/
  live : Nat
  /-- R171 (05): EVMASK, 64 bits; reset 0. -/
  evmask : BitVec 64
  /-- R170 (05): EVPEND, 64 bits; reset 0. -/
  evpend : BitVec 64
  /-- R155 (05): STOWP, 129 bits; reset 0. -/
  stowp : Capv
  /-- R160 (05): SQUINT, 64 bits; reset 0. -/
  squint : BitVec 64
  /-- R205 (07): FPSR, 32 bits; reset 0. -/
  fpsr : BitVec 32
  /-- R204 (07): FPCR, 32 bits; reset 0. -/
  fpcr : BitVec 32
  /-- R256 (09): XROOT, 64 bits; reset 0. -/
  xroot : BitVec 64
  /-- R231 (07): RUN, 64 bits; reset 0. -/
  run : BitVec 64
  /-- R172 (05): the WAIT that suspends the stall: destination and mask; reset none. -/
  waitFor : Option (BitVec 5 × BitVec 64)
  /-- R221 (07): the store buffer, oldest first; reset empty. -/
  sbuf : List BufStore
  /-- R369 (13): the far access in flight; reset none. -/
  farOp : Option FarOp
  /-- R233 (08): an exception settled while the stall was in FAR; reset none. -/
  outcome : Option Exc
  /-- R162 (05): the squint access that waits; reset none. -/
  squintReq : Option SquintReq
  /-- R166 (05): STSTOP waits for the access to end, 1 bit; reset 0. -/
  stopReq : Bool
  /-- R591 (23): a halt waits for the access to end, with its cause code; reset none. -/
  haltReq : Option (BitVec 3)
  /-- R591 (23): the state a halted stall was halted from; reset OFF. -/
  haltedFrom : StallState
  /-- R591 (23): the cause of the last halt, 3 bits; reset 0. -/
  haltCause : BitVec 3
  /-- R593 (23): a resumed stall passes the breakpoint at its next instruction once, 1 bit; reset 0. -/
  bpSkip : Bool
  /-- R591 (23): one instruction is to run and the stall then halts, 1 bit; reset 0. -/
  stepping : Bool
  /-- R368 (13): the stall's TSEQ counter, 8 bits; reset 0. -/
  tseq : BitVec 8
  /-- R227 (07): XINV issued by this stall that have not completed; reset none. -/
  xinvs : List Nat
deriving DecidableEq, Repr

/-- A TLB entry (R272). -/
structure TlbEntry where
  /-- XROOT.SPACE of the stall that walked it. -/
  space : BitVec 12
  /-- The virtual base of the page. -/
  va : BitVec 64
  /-- The leaf. -/
  leaf : BitVec 64
  /-- Where the leaf was read. -/
  src : BitVec 44
deriving DecidableEq, Repr

/-- A pointer entry in the walk cache (R274). -/
structure WalkEntry where
  /-- XROOT.SPACE. -/
  space : BitVec 12
  /-- Level of the pointer, 0 to 2. -/
  level : Nat
  /-- The virtual address bits above the span of the pointer. -/
  vaHi : Nat
  /-- The pointer. -/
  ptr : BitVec 64
deriving DecidableEq, Repr

/-- An XINV on its way to a core (R227, R275). -/
structure XinvReq where
  /-- A number that names the issuing stall's request. -/
  id : Nat
  /-- The issuing stall. -/
  st : Nat
  /-- The address, or none for ALL. -/
  addr : Option (BitVec 64)
deriving DecidableEq, Repr

/-- One Nave core (chapters 05, 07, 09). -/
structure Core where
  /-- R231 (07): CYCLE, 64 bits; reset 0. -/
  cycle : BitVec 64
  /-- R167 (05): the stall that ran last, 0 to 7; reset 0. -/
  lastRan : Fin 8
  /-- R169 (05): the running stall has issued an instruction since it was switched in, 1 bit; reset 0. -/
  issued : Bool
  /-- R168 (05): cycles since the running stall was switched in; reset 0. -/
  ran : Nat
  /-- R272 (09): the TLBs, newest first; reset none. -/
  tlb : List TlbEntry
  /-- R274 (09): the walk cache; reset none. -/
  walk : List WalkEntry
  /-- R227 (07): XINV that have not completed on this core, oldest first; reset none. -/
  xinv : List XinvReq
  /-- R226, R143 (04): the stall whose GRANT.FENCE holds this core, with the far-in accesses it awaits; reset none. -/
  fence : Option (Nat × List Nat)
deriving DecidableEq, Repr

/-- An event on its way from the timer island to the cores (R170, R174, R249). -/
structure EvFlight where
  /-- The event number. -/
  n : Nat
  /-- The targets still to reach, bit 8 × core + stall. -/
  targets : BitVec 32
deriving DecidableEq, Repr

/-- Events and their limiters (R174, R251). -/
structure Events where
  /-- R174: limiters with an interval running, bit n; reset 0. -/
  running : BitVec 64
  /-- R174: limiters that hold an occurrence, bit n; reset 0. -/
  held : BitVec 64
  /-- R174, R252: the stalls for which limiters 56 to 63 hold an occurrence, 5 bits each; reset 0. -/
  swHeld : Vector (Fin 32) 8
  /-- R170: events on their way to the cores, oldest first; reset none. -/
  flight : List EvFlight
  /-- R251: the level sources 44 and 45 as last seen asserted, 2 bits; reset 0. -/
  levels : BitVec 2
  /-- R24, R222: answers of register blocks on their way back, oldest first; reset none. -/
  crossings : List (Nat × Island)
deriving DecidableEq, Repr

/-! ## The ring (chapters 12 and 13) -/

/-- The states of a lane (RING_LANE_STATUS.STATE). -/
inductive LaneState where
  | off | training | keyAgreement | inService | waiting | parked
deriving DecidableEq, Repr

/-- A link key of one direction of a lane (R325, R326). -/
structure LinkKey where
  /-- 32 bytes. -/
  key : List (BitVec 8)
  /-- 4 bytes. -/
  salt : List (BitVec 8)
  /-- Codewords under this key. -/
  counter : Nat
deriving DecidableEq, Repr

/-- A codeword of a lane (R324). -/
structure Codeword where
  /-- The control field. -/
  ctl : BitVec 20
  /-- The body: 624 payload bytes, encrypted where the lane is protected, and the 16-byte tag. -/
  body : List (BitVec 8)
deriving DecidableEq, Repr

/-- One ring lane beyond its registers (chapter 12). -/
structure Lane where
  /-- RING_LANE_STATUS.STATE (12): 3 bits; reset 0. -/
  state : LaneState
  /-- RING_LANE_STATUS.RATE (12): 2 bits; reset 0. -/
  rate : BitVec 2
  /-- RING_LANE_STATUS.LOS (12): 1 bit; reset 0. -/
  los : Bool
  /-- RING_LANE_STATUS.PROT (12): 1 bit; reset 0. -/
  prot : Bool
  /-- R326: the neighbour's serial of the last agreement; reset none. -/
  peer : Option (BitVec 64)
  /-- R321: the neighbour's rate offer of the last training, 2 bits; reset 0. -/
  peerRate : BitVec 2
  /-- R326: transmit key; reset none. -/
  txKey : Option LinkKey
  /-- R326: receive key; reset none. -/
  rxKey : Option LinkKey
  /-- R343: consecutive uncorrectable or unauthentic codewords; reset 0. -/
  badRun : Nat
  /-- R343: consecutive codewords with RF (RF_RX shows whether it is not 0); reset 0. -/
  rfRun : Nat
  /-- R346: consecutive codewords without RF since the port failed; reset 0. -/
  goodRun : Nat
  /-- R343: RF is set in every codeword sent, 1 bit; reset 0. -/
  txRf : Bool
  /-- R347: RETRAIN is set in every codeword sent, 1 bit; reset 0. -/
  txRetrain : Bool
  /-- R347: the other end has set RETRAIN, 1 bit; reset 0. -/
  rxRetrain : Bool
  /-- R323: the polarity in force, TXINV of the last training, 1 bit; reset 0. -/
  txInv : Bool
  /-- R340: the delay has been measured in this bay, 1 bit; reset 0. -/
  measured : Bool
  /-- R324, R325: the codeword last sent; reset none. -/
  lastTx : Option Codeword
  /-- R340: the measured delays of the last 64 bays, newest first, in 2^−6 ns; reset none. -/
  delays : List Nat
deriving DecidableEq, Repr

/-- One ring port (R320, R333, R343 to R347). -/
structure RPort where
  /-- R343: no lane of the port is in service, 1 bit; reset 1. -/
  failed : Bool
  /-- R344: the port is folded, 1 bit; reset 0. -/
  folded : Bool
  /-- R347: a planned wrap is under way, 1 bit; reset 0. -/
  planned : Bool
  /-- R346: the timer cycle in which the port last came into service; reset 0. -/
  upSince : Nat
  /-- R320: codewords sent; reset 0. -/
  txNum : Nat
  /-- R333: bytes of frames begun that await a DATA codeword, fewer than 624; reset empty. -/
  txBuf : List (BitVec 8)
  /-- R324, R333: where in them the first frame header begins; reset none. -/
  txFirst : Option Nat
  /-- R331: when the last codeword of what has been begun ends, in picoseconds of the timer cycles; reset 0. -/
  txEnd : Nat
  /-- R333: bytes still to come of the frame being received; reset 0. -/
  rxLeft : Nat
  /-- R333: bytes of a header that goes on in the next DATA codeword; reset empty. -/
  rxPart : List (BitVec 8)
  /-- R334: reception resumes at the next FIRST, 1 bit; reset 0. -/
  rxLost : Bool
deriving DecidableEq, Repr

/-- A frame in a queue (R354, R358). -/
structure Queued where
  /-- The frame. -/
  frame : Frame
  /-- The timer cycle in which it joined. -/
  since : Nat
  /-- Its place in the order in which frames joined. -/
  ord : Nat
deriving DecidableEq, Repr

/-- One ring input and output (R351 to R355). -/
structure RingDir where
  /-- R351: frames that pass through, by class CTRL, FAR, TEN-H, TEN-L, oldest first; reset empty. -/
  transit : Vector (List Queued) 4
  /-- R354: frames inserted here, by class, oldest first; reset empty. -/
  loc : Vector (List Queued) 4
  /-- R351: the wicket of this input; reset none. -/
  wicket : Option Frame
  /-- R352: cumulative units freed at this input, by class, 32 bits each; reset 0. -/
  freed : Vector (BitVec 32) 4
  /-- R352: cumulative units sent downstream, by class, 32 bits each; reset 0. -/
  sent : Vector (BitVec 32) 4
  /-- R352: cumulative units the downstream input has freed, by class, 32 bits each; reset 0. -/
  credited : Vector (BitVec 32) 4
  /-- R353: the downstream wicket is empty, 1 bit; reset 1. -/
  wicketFree : Bool
  /-- R355: bytes of CTRL frames begun in this bay; reset 0. -/
  ctrlBytes : Nat
  /-- R358: TEN bytes inserted here in this bay (ADD); reset 0. -/
  addBytes : Nat
  /-- R358: TEN bytes carried in this bay (CAP); reset 0. -/
  capBytes : Nat
  /-- R358: the output was congested in the last bay, 1 bit; reset 0. -/
  congested : Bool
  /-- R358: a local TEN frame begun in this bay had waited longer than CONG_WAIT, 1 bit; reset 0. -/
  waited : Bool
  /-- R359, R360: the beacon held from downstream; reset none. -/
  beacon : Option Beacon
  /-- R360: TEN frames inserted in this bay: destinations and bytes; reset none. -/
  tenTx : List (Nat × Nat)
  /-- R360: the limit has held back this node's insertion in this bay, 1 bit; reset 0. -/
  fairHit : Bool
  /-- R354: the frame last begun on this output; reset none. -/
  lastTx : Option Frame
  /-- R330, R341, R344: the marker last sent on this output; reset none. -/
  markerTx : Option Marker
  /-- R359: the beacon last sent upstream for this ring; reset none. -/
  beaconTx : Option Beacon
  /-- R331: the timer cycle of that marker; reset none. -/
  markerAt : Option Nat
  /-- R330, R332: the cells that this bay's SAFE region carries on this output, by slot; reset none. -/
  safeOut : List (Nat × List (BitVec 8))
  /-- R332: SAFE codewords of the region received on this ring; reset 0. -/
  safeIdx : Nat
  /-- R344: the last marker received on this ring had FOLDED set, 1 bit; reset 0. -/
  foldSeen : Bool
deriving DecidableEq, Repr

/-- A reliable CTRL frame that waits for its acknowledgement (R366). -/
structure Reliable where
  /-- The frame. -/
  frame : Frame
  /-- Resends made. -/
  resends : Nat
deriving DecidableEq, Repr

/-- A far request in the far-in queue (R371), with the fields of R368. -/
structure FarReq where
  /-- The node that asks. -/
  src : BitVec 8
  /-- A STORE. -/
  isStore : Bool
  /-- The far cursor. -/
  addr : BitVec 64
  /-- Bytes. -/
  size : Nat
  /-- STALL. -/
  stall : BitVec 8
  /-- TSEQ. -/
  tseq : BitVec 8
  /-- SERIAL. -/
  serial : BitVec 64
  /-- DATA of a store. -/
  data : List (BitVec 8)
deriving DecidableEq, Repr

/-- The states of a store-ledger entry (R372). -/
inductive LedgerState where
  | performed | answered | cancelled
deriving DecidableEq, Repr

/-- A store-ledger entry (R372). -/
structure LedgerEntry where
  /-- Requester SERIAL. -/
  serial : BitVec 64
  /-- STALL. -/
  stall : BitVec 8
  /-- TSEQ. -/
  tseq : BitVec 8
  /-- State. -/
  state : LedgerState
  /-- Town time of last use. -/
  used : BitVec 64
deriving DecidableEq, Repr

/-- A serial's node ID in the gateway's table (R337). -/
structure Assigned where
  /-- The lantern's serial. -/
  serial : BitVec 64
  /-- Its ID. -/
  id : BitVec 8
deriving DecidableEq, Repr

/-- The ring switch beyond its registers (chapters 04, 12, 13). -/
structure Ring where
  /-- The lanes RL0 to RL3. -/
  lanes : Vector Lane 4
  /-- The ports, east and west. -/
  ports : Vector RPort 2
  /-- Ring 0 and ring 1. -/
  dirs : Vector RingDir 2
  /-- RING_NODE (12): the node ID, 8 bits; reset none in lantern role, 0 in gateway role. -/
  node : Option (BitVec 8)
  /-- R336: the ID taken from an ENUM of the pass in progress (none: not seen; some none: counted in OVER); reset none. -/
  enumId : Option (Option (BitVec 8))
  /-- R336: the ENUM_DONE or ENUM pass is running at the gateway, 1 bit; reset 0. -/
  enumBusy : Bool
  /-- R336: the port on which the gateway sent the ENUM; reset east. -/
  enumPort : Fin 2
  /-- R336: the ENUM has been sent out of the other port too, 1 bit; reset 0. -/
  enumSecond : Bool
  /-- R330: the cloister holds a completed enumeration, 1 bit; reset 0. -/
  enumerated : Bool
  /-- R336: bays since the gateway's first port came into service; reset 0. -/
  bays : Nat
  /-- R337: the gateway's table of serials and IDs; reset empty. -/
  assigned : List Assigned
  /-- R337: the serials counted in OVER since the last enumeration; reset none. -/
  overJoin : List (BitVec 64)
  /-- R341: HOPS of the marker taken in this bay and its ring; reset none. -/
  taken : Option (BitVec 8 × Fin 2)
  /-- R349: the ring that carried the last marker, of two in one bay the one taken; reset none. -/
  lastMarker : Option (Fin 2)
  /-- R329, R341: TIMEs of the bays begun here, the newest first, at most 128; reset none. -/
  times : List (BitVec 64)
  /-- R330: NODES of the last enumeration at the gateway; reset 0. -/
  nodes : Nat
  /-- R332: the cell last written into the node's own slot; reset empty. -/
  slotTx : List (BitVec 8)
  /-- R338: the node is isolated, 1 bit; reset 0. -/
  isolated : Bool
  /-- R338: a marker has been received since Nave reset, 1 bit; reset 0. -/
  everMarked : Bool
  /-- R339: this gateway has stopped originating, 1 bit; reset 0. -/
  stopped : Bool
  /-- R333: the next SEQ of each class CTRL, FAR, TEN-H, TEN-L, 32 bits each; reset 0. -/
  seq : Vector (BitVec 32) 4
  /-- R350: source and SEQ of each broadcast delivered since its source last came up (log 21); reset none. -/
  bcastSeen : List (Nat × BitVec 32)
  /-- R363: the SAFE cell queued, SRC still 0, the bays it is still to be sent in, and whether this bay is one of them; reset none. -/
  safeTx : Option (List (BitVec 8) × Nat × Bool)
  /-- R332: SEQ of the last SAFE cell queued, 32 bits; reset 0. -/
  safeSeq : BitVec 32
  /-- R364: the stored cell of each source node; reset none. -/
  safeRx : List (Nat × List (BitVec 8))
  /-- R332: SEQ of the last cell accepted from each slot; reset none. -/
  safeLast : List (Nat × BitVec 32)
  /-- R367: the CTRL transmit queue, at most 16; reset empty. -/
  ctrlTx : List Queued
  /-- R354: frames that have joined a queue; reset 0. -/
  queued : Nat
  /-- R367: the CTRL receive queue, at most 64; reset empty. -/
  ctrlRx : List Frame
  /-- R366: reliable frames outstanding, at most one per destination; reset none. -/
  reliable : List Reliable
  /-- R366: reliable frames that wait for the one outstanding to their destination; reset empty. -/
  reliableQ : List Frame
  /-- R366: SEQ of the last reliable frame placed from each source; reset none. -/
  placed : List (Nat × BitVec 32)
  /-- R371: the far-in queue, at most 64; reset empty. -/
  farIn : List FarReq
  /-- R372: the store ledger, at most 8,192 entries; reset empty. -/
  ledger : List LedgerEntry
  /-- R372: EVICTED, 1 bit; reset 0. -/
  evicted : Bool
deriving DecidableEq, Repr

/-! ## Tenant ports, the cipher engine and the Clerestory (chapters 14 and 15) -/

/-- A transmit descriptor in progress (R380, R381). -/
structure TxDesc where
  /-- Its address. -/
  addr : Nat
  /-- Its bytes 16 to 31 as read. -/
  tail : List (BitVec 8)
  /-- The frame, without FCS. -/
  data : List (BitVec 8)
  /-- The ring has not been disabled since the descriptor was taken (R380). -/
  live : Bool
deriving DecidableEq, Repr

/-- One tenant port beyond its registers (chapter 14). -/
structure TPortState where
  /-- TP_STATUS.BLOCK_LOCK (14): 1 bit; reset 0. -/
  block : Bool
  /-- TP_STATUS.FEC_LOCK (14): 1 bit; reset 0. -/
  fecLock : Bool
  /-- TP_STATUS.LF (14): 1 bit; reset 0. -/
  lf : Bool
  /-- TP_STATUS.RF (14): 1 bit; reset 0. -/
  rf : Bool
  /-- R374: the FEC in use since EN last rose, 1 bit; reset 1. -/
  fecUsed : Bool
  /-- R377: the H bucket in thousandths of a bit; reset full (64 KiB). -/
  bucketH : Nat
  /-- R377: the L bucket in thousandths of a bit; reset full (64 KiB). -/
  bucketL : Nat
  /-- R377: the timer-island time to which the buckets are filled, in ns; reset 0. -/
  bucketAt : Nat
  /-- R378: the high egress queue, oldest first; reset empty. -/
  egressH : List (List (BitVec 8))
  /-- R378: the low egress queue, oldest first; reset empty. -/
  egressL : List (List (BitVec 8))
  /-- R379, R381: the transmit descriptor whose frame waits for the wire; reset none. -/
  txd : Option TxDesc
  /-- R379: which source had the last turn, high and low, 2 bits; reset 0. -/
  turn : BitVec 2
  /-- R379: the frame last sent on the wire; reset none. -/
  lastTx : Option (List (BitVec 8))
deriving DecidableEq, Repr

/-- States of a job slot (R389). -/
inductive SlotState where
  | idle | queued | running | preempted | done
deriving DecidableEq, Repr

/-- The hidden progress of a cipher job (R391, R393). -/
structure JobState where
  /-- The descriptor's bytes 0x00 to 0x6F as read at the start. -/
  desc : List (BitVec 8)
  /-- The tags of the five capabilities. -/
  caps : List Bool
  /-- KEY as read at the start. -/
  key : List (BitVec 8)
  /-- AUX as read at the start: bytes 0 to 31 and the AAD (GCM), the counter block or the IV, r and s. -/
  aux : List (BitVec 8)
  /-- Bytes processed. -/
  done : Nat
  /-- The message so far (hashes) or the cipher text so far (GCM). -/
  input : List (BitVec 8)
  /-- The last 16 bytes of cipher text (CBC). -/
  chain : List (BitVec 8)
  /-- R392: the bytes processed at the last 64 KiB check at which the job yielded. -/
  yieldedAt : Nat
deriving DecidableEq, Repr

/-- One job slot (R389). -/
structure Slot where
  /-- CPH_SLOT_STATUS_s.STATE (14): 3 bits; reset IDLE. -/
  state : SlotState
  /-- CPH_SLOT_STATUS_s.CODE (14): 4 bits; reset 0. -/
  code : BitVec 4
  /-- R387: FLAGS.PRIO of the job; reset 0. -/
  prio : BitVec 3
  /-- R390: its place among the waiting jobs of its priority, lower first, 0 for a preempted job; reset 0. -/
  order : Nat
  /-- R391: progress of the job; reset none. -/
  job : Option JobState
  /-- R393: the context block as the engine wrote it; reset empty. -/
  ctx : List (BitVec 8)
deriving DecidableEq, Repr

/-- The cipher engine beyond its registers (chapter 14). -/
structure Cph where
  /-- The sixteen slots. -/
  slots : Vector Slot 16
  /-- R389: the running slot; reset none. -/
  running : Option (Fin 16)
  /-- R389: the next place in submission order; reset 1. -/
  nextOrder : Nat
  /-- R395: a TRNG health test fails, 1 bit; reset 0. -/
  entropyFail : Bool
  /-- R395: generate requests since the last reseed; reset 0. -/
  drbgReqs : Nat
  /-- R395: the context key has been drawn since Nave start, 1 bit; reset 0. -/
  ctxKey : Bool
deriving DecidableEq, Repr

/-- A component of the motion mask (R400). -/
structure Blob where
  /-- Left column. -/
  x0 : Nat
  /-- Top row. -/
  y0 : Nat
  /-- Right column. -/
  x1 : Nat
  /-- Bottom row. -/
  y1 : Nat
  /-- Pixels. -/
  count : Nat
deriving DecidableEq, Repr

/-- A ground position (R408): X = x / w, Y = y / w metres. -/
structure Ground where
  /-- Numerator of X. -/
  x : Int
  /-- Numerator of Y. -/
  y : Int
  /-- Common denominator, not 0. -/
  w : Int
deriving DecidableEq, Repr

/-- A sighting of a track: frame time and ground position (R408). -/
structure Sight where
  /-- The frame's time. -/
  time : BitVec 64
  /-- The ground position. -/
  pos : Ground
deriving DecidableEq, Repr

/-- A track (R407 to R410). -/
structure Track where
  /-- Track ID. -/
  id : BitVec 32
  /-- Class of its latest blob. -/
  cls : Nat
  /-- Confidence of its latest blob. -/
  conf : BitVec 8
  /-- Its last box. -/
  box : Blob
  /-- Its sightings, oldest first. -/
  path : List Sight
  /-- Zones entered, bit z. -/
  zones : BitVec 16
  /-- Highest frame speed in 0.1 km/h. -/
  vmax : Nat
  /-- Processed frames since its last blob. -/
  missing : Nat
  /-- A frame of it was processed in int8 [0], without the array [1]. -/
  flags : BitVec 2
deriving DecidableEq, Repr

/-- The counts of a zone in the open period (R409, R411). -/
structure ZoneCount where
  /-- Classes 0 to 5. -/
  cls : Vector Nat 6
  /-- Speed bins 0 to 7. -/
  bins : Vector Nat 8
  /-- Frames in which a track stood in the zone. -/
  occ : Nat
deriving DecidableEq, Repr

/-- States of a program bank (CLR_PROG_STATUS_b.STATE). -/
inductive BankState where
  | empty | loading | accepted | rejected | active
deriving DecidableEq, Repr

/-- A program bank (R403). -/
structure Bank where
  /-- STATE; reset empty. -/
  state : BankState
  /-- REASON, 4 bits; reset 0. -/
  reason : BitVec 4
  /-- INT8, 1 bit; reset 0. -/
  int8 : Bool
  /-- R403: CLR_PROG_ADDR_b as LOAD found it, 44 bits; reset 0. -/
  addr : BitVec 64
  /-- R403: CLR_PROG_LEN_b as LOAD found it, 25 bits; reset 0. -/
  len : Nat
deriving DecidableEq, Repr

/-- An empty bank: its reset. -/
def Bank.empty : Bank := { state := .empty, reason := 0, int8 := false, addr := 0, len := 0 }

/-- A zone in force (R406). -/
structure Zone where
  /-- EN. -/
  en : Bool
  /-- The four points (x, y). -/
  pts : Vector (Nat × Nat) 4
deriving DecidableEq, Repr

/-- The Clerestory beyond its registers (chapter 15). -/
structure Clr where
  /-- CLR_CTRL.RUN (15): 1 bit; reset 0. -/
  run : Bool
  /-- R398: CAMLOCK, 1 bit; reset 0. -/
  camlock : Bool
  /-- R398: the camera has been lost since RUN rose or its last accepted frame, 1 bit; reset 0. -/
  camLost : Bool
  /-- R399: THMOK, 1 bit; reset 0. -/
  thmok : Bool
  /-- R405: the active bank; reset A. -/
  active : Fin 2
  /-- R405: a swap is due at the next frame boundary, 1 bit; reset 0. -/
  swapDue : Bool
  /-- R416: the level in force at the Clerestory, 0 to 3, and the level due at the next frame boundary; reset 0, none. -/
  level : BitVec 2
  /-- R416: the level that takes effect at the next frame boundary; reset none. -/
  levelDue : Option (BitVec 2)
  /-- The two banks. -/
  banks : Vector Bank 2
  /-- R406: the zones in force; reset disabled. -/
  zones : Vector Zone 16
  /-- R406: zones committed for the next frame boundary; reset none. -/
  zonesDue : List (Nat × Zone)
  /-- R408: the homography in force, 9 × 32 bits; reset 0. -/
  homog : Vector (BitVec 32) 9
  /-- R408: the homography set for the next frame boundary; reset none. -/
  homogDue : Option (Vector (BitVec 32) 9)
  /-- R409: the speed edges in force, 7 × 16 bits; reset 0. -/
  edges : Vector (BitVec 16) 7
  /-- R400: the background, bfloat16 per working pixel; reset none held (log 10). -/
  background : List (BitVec 16)
  /-- R407: the tracks, at most 64; reset none. -/
  tracks : List Track
  /-- R407: the next track ID, 32 bits; reset 1. -/
  nextTrack : BitVec 32
  /-- R417: the time of the last processed frame; reset none. -/
  lastFrame : Option (BitVec 64)
  /-- R411: town time of the open period's start; reset none. -/
  periodStart : Option (BitVec 64)
  /-- R411: frames processed in the open period; reset 0. -/
  periodFrames : Nat
  /-- R411: the open period is partial, had int8 frames, had frames without the array: 3 bits; reset 0. -/
  periodFlags : BitVec 3
  /-- R409: counts of the open period; reset 0. -/
  counts : Vector ZoneCount 16
  /-- R418: NOINT8, 1 bit; reset 0. -/
  noint8 : Bool
deriving DecidableEq, Repr

/-! ## Timers and lamp interfaces (chapter 16) -/

/-- States of a timer or lamp channel that its CTRL shows; frozen is the running state with a halted owner (R434). -/
inductive RunState where
  | stopped | waiting | running
deriving DecidableEq, Repr

/-- A general timer beyond its registers (R422, R425). -/
structure Gt where
  /-- TMR_GT_CTRL.STATE (16): 2 bits; reset stopped. -/
  state : RunState
  /-- R422: timer cycles since the last tick, 8 bits; reset 0. -/
  presc : Nat
deriving DecidableEq, Repr

/-- A lamp channel beyond its registers (R435, R436). -/
structure Lp where
  /-- TMR_LP_CTRL.STATE (16): 2 bits; reset stopped. -/
  state : RunState
  /-- R435: the count, 16 bits; reset 0. -/
  count : Nat
  /-- R435: timer cycles since the last tick, 4 bits; reset 0. -/
  presc : Nat
  /-- R435: CLKDIV in force since the last period boundary, 4 bits; reset 0. -/
  clkdiv : Nat
  /-- R436: the dither phase k, 4 bits; reset 0. -/
  phase : BitVec 4
deriving DecidableEq, Repr

/-- A capture of an edge detector (R439). -/
structure EdEntry where
  /-- 1 rising. -/
  rising : Bool
  /-- Timestamp. -/
  ts : BitVec 64
deriving DecidableEq, Repr

/-- An edge detector beyond its registers (R438 to R441). -/
structure Ed where
  /-- R439: the FIFO, oldest first, at most 4; reset empty. -/
  fifo : List EdEntry
  /-- R438: the filtered level, 1 bit; reset 0. -/
  level : Bool
  /-- R440: the timer cycle of the last captured edge; reset none. -/
  last : Option Nat
  /-- R438: the watched ball's level in the last timer cycle, 1 bit; reset 0. -/
  ball : Bool
  /-- R438: the two stages of the synchroniser, 2 × 1 bit; reset 0. -/
  sync : BitVec 2
  /-- R438: consecutive timer cycles for which the synchronised input has differed from the filtered level, 9 bits; reset 0. -/
  held : Nat
deriving DecidableEq, Repr

/-- An edge detector after Nave reset. -/
def Ed.init : Ed := { fifo := [], level := false, last := none, ball := false, sync := 0, held := 0 }

/-- The DALI frame engine (R447 to R449). -/
structure Dali where
  /-- BUSY (16): a Nave frame waits or is on the bus, 1 bit; reset 0. -/
  busy : Bool
  /-- BUSFAULT (16): 1 bit; reset 0. -/
  fault : Bool
  /-- R447: ANSWER of the Nave frame that waits or is on the bus, 1 bit; reset 0. -/
  ask : Bool
  /-- R465: a frame of the Sacristy waits or is on the bus (its 16 bits); reset none. -/
  sacFrame : Option (BitVec 16)
  /-- R447, R465: the frame last put on the bus: 24-bit or not, data; reset none. -/
  last : Option (Bool × BitVec 24)
deriving DecidableEq, Repr

/-- The timer block beyond its registers (chapter 16). -/
structure Tmr where
  /-- Timer cycles since power-on reset (10 ns each); reset 0. -/
  cycles : Nat
  /-- GT0 to GT15. -/
  gt : Vector Gt 16
  /-- LP0 to LP7. -/
  lp : Vector Lp 8
  /-- ED0 to ED15. -/
  ed : Vector Ed 16
  /-- R432: a scheduled release is pending, 1 bit; reset 0. -/
  pending : Bool
  /-- R429: the source events of the last timer cycle, one bit for each TRIGSEL, 64 bits; reset 0. -/
  trig : BitVec 64
deriving DecidableEq, Repr

/-! ## The Sacristy (chapters 17 to 21) -/

/-- The life-cycle states (R482, as the telemetry page numbers them). -/
inductive LifeCycle where
  | manufacture | field | fieldOpenDebug | decommissioned
deriving DecidableEq, Repr

/-- A doorbell slot (R469). -/
structure HSlot where
  /-- R469: bytes 0 to 59, MSG and HDR, as fifteen words; reset 0. -/
  words : Vector (BitVec 32) 15
  /-- R469: FULL, 1 bit; reset 0 (EMPTY). -/
  full : Bool
deriving DecidableEq, Repr

/-- The Hatch (R467 to R475). -/
structure Hatch where
  /-- R470: the Nave-to-Sacristy slots. -/
  tx : Vector HSlot 16
  /-- R471: the Sacristy-to-Nave slots. -/
  rx : Vector HSlot 16
  /-- R470: the slots rung and not yet served, in the order of their rings; reset empty. -/
  order : List (Fin 16)
  /-- R471: answers that wait until the Nave has acknowledged what their slot holds, oldest first; reset empty. -/
  late : List (Nat × HSlot)
deriving DecidableEq, Repr

/-- A heartbeat challenge whose 20 ms have not passed (R473). -/
structure Challenge where
  /-- C, 32 bits. -/
  c : BitVec 32
  /-- The sequence k, 32 bits. -/
  k : BitVec 32
  /-- A good answer has come, with its REQUEST_LAMP. -/
  answer : Option Bool
deriving DecidableEq, Repr

/-- The heartbeat (R473, R474). -/
structure Heartbeat where
  /-- R473: the sequence of the next challenge, 32 bits; reset 0, DESIGN CHOICE (log 6). -/
  seq : BitVec 32
  /-- R473: challenges posted in the last 20 ms, oldest first; reset none. -/
  posted : List Challenge
  /-- R474: consecutive challenges that passed without a good answer; reset 0. -/
  missed : Nat
  /-- R474: supervision is armed, 1 bit; reset 0. -/
  armed : Bool
  /-- R474: HB_GRACE is running, 1 bit; reset 0. -/
  grace : Bool
deriving DecidableEq, Repr

/-- The values loaded into the vigil generator (R464). -/
structure Vigil where
  /-- R460: VIGIL_PM, 16 bits; reset 0. -/
  pm : Nat
  /-- R460: VIGIL_PERIOD, 16 bits; reset 0. -/
  period : Nat
  /-- R460: RATED_DUTY0, 32 bits; reset 0. -/
  rated0 : Nat
  /-- R460: RATED_DUTY1, 32 bits; reset 0. -/
  rated1 : Nat
  /-- R460: VIGIL_OUT, 8 bits; reset 0. -/
  out : BitVec 8
  /-- R460: VIGIL_ARC, 8 bits; reset 0. -/
  arc : Nat
  /-- R460: VIGIL_DIM, 16 bits; reset 0. -/
  dim : Nat
  /-- R460: DALI_REPEAT, 16 bits; reset 0. -/
  repeatS : Nat
  /-- R465: ticks of 10 ns into the period of LP0 and LP1, 16 bits; reset 0, DESIGN CHOICE (log 16). -/
  count : Nat
  /-- R465, R436: the dither phase of LP0 and LP1, 4 bits; reset 0, DESIGN CHOICE (log 16). -/
  phase : BitVec 4
deriving DecidableEq, Repr

/-- The override multiplexer and the outputs it feeds (R443, R465, R521, R527). -/
structure Mux where
  /-- R521: the Sacristy has taken the outputs, 1 bit; reset 1 (R83). -/
  taken : Bool
  /-- R443: outputs LP0 to LP7 that carry the Sacristy drive, 8 bits; reset all. -/
  sacLp : BitVec 8
  /-- R443: DALI carries the Sacristy drive, 1 bit; reset 1. -/
  sacDali : Bool
  /-- R443: DIM_OUT carries the Sacristy drive, 1 bit; reset 1. -/
  sacDim : Bool
  /-- R47, R527: the levels of LDRV_EN0 and LDRV_EN1, 2 bits; reset 0 until step 5 (R82). -/
  ldrvEn : BitVec 2
deriving DecidableEq, Repr

/-- Supervision of one string and its sensor (R528 to R532). -/
structure StringSup where
  /-- R528: ADC rounds since a counted sample exceeded ISNS_DARK_MV; reset 3,125 (50 ms). -/
  sinceLit : Nat
  /-- R530: ADC rounds for which the open condition has lasted; reset 0. -/
  openFor : Nat
  /-- R521: ADC rounds for which the open condition has been absent; reset 0. -/
  openClear : Nat
  /-- R530: ADC rounds for which the short condition has lasted; reset 0. -/
  shortFor : Nat
  /-- R521: ADC rounds for which the short condition has been absent; reset 0. -/
  shortClear : Nat
  /-- R530: ADC rounds for which the NTC has read hot; reset 0. -/
  hotFor : Nat
  /-- R521: ADC rounds for which the NTC has not read hot; reset 0. -/
  hotClear : Nat
  /-- R532: ADC rounds for which the NTC has read above NTC_HOT_MV; reset 0. -/
  coolFor : Nat
  /-- R530: ADC rounds for which the NTC has read outside its range; reset 0. -/
  ntcBad : Nat
  /-- R521: ADC rounds for which the NTC has read within its range; reset 0. -/
  ntcGood : Nat
  /-- R532: the temperature cut is in force, 1 bit; reset 0. -/
  ntcCut : Bool
  /-- R531: a hardware overcurrent cut is in force, 1 bit; reset 0. -/
  cut : Bool
  /-- R531: CUTn_LATCHED, 1 bit; reset 0. -/
  latched : Bool
  /-- R531: the Sacristy's millisecond count at the cuts of the last 60 s; reset none. -/
  cuts : List Nat
deriving DecidableEq, Repr

/-- Functional safety (chapter 20). -/
structure Safety where
  /-- R521: take causes active, bit i is cause 8 + i, 10 bits; reset 0x100 (Nave not running). -/
  causes : BitVec 10
  /-- R525: the photodiode votes night, 1 bit; reset 1, DESIGN CHOICE (log 7). -/
  pdNight : Bool
  /-- R525: ADC rounds below PD_NIGHT_MV; reset 0. -/
  pdBelow : Nat
  /-- R525: ADC rounds above PD_DAY_MV; reset 0. -/
  pdAbove : Nat
  /-- R525: PD_FAULT, 1 bit; reset 0. -/
  pdFault : Bool
  /-- R525: ADC rounds outside PD_MIN_MV to PD_MAX_MV; reset 0. -/
  pdBad : Nat
  /-- R525: ADC rounds inside it; reset 0. -/
  pdGood : Nat
  /-- R526: the schedule votes night, 1 bit; reset 1. -/
  schedNight : Bool
  /-- R529: milliseconds for which the lamp has been dark at night; reset 0. -/
  darkFor : Nat
  /-- R522: milliseconds for which the release conditions have held; reset 0. -/
  releaseFor : Nat
  /-- The two strings. -/
  str : Vector StringSup 2
  /-- R533: the last self-test failed, 1 bit; reset 0. -/
  testFailed : Bool
deriving DecidableEq, Repr

/-- The event log (R477 to R479). -/
structure EventLog where
  /-- R477: SEQ of the next record, 32 bits; reset 0, kept for ever. -/
  seq : BitVec 32
  /-- R479: the admission bucket in thousandths of a record; reset 256,000. -/
  bucket : Nat
  /-- R479: the Nave bucket in thousandths of a record; reset 64,000. -/
  naveBucket : Nat
  /-- R479: records refused since the last admitted record; reset 0. -/
  lost : Nat
  /-- R475: records refused since power-on reset, all; reset 0. -/
  drops : Nat
  /-- R475: Nave records refused since power-on reset; reset 0. -/
  naveDrops : Nat
  /-- R479: records of severity 3 admitted with an empty bucket, by the millisecond count; reset none. -/
  sev3 : List Nat
  /-- R500: admitted records that wait for the North aisle, oldest first, at most 256; reset empty. -/
  queue : List (BitVec 256)
  /-- R478: the place of the next record in the log region, 0 to 32,767; reset 0. -/
  place : Nat
deriving DecidableEq, Repr

/-- The key store (R480). -/
structure Keys where
  /-- R480: device key, 384 bits; reset 0, DESIGN CHOICE (log 2). -/
  device : BitVec 384
  /-- R480: span credential chain; reset empty, DESIGN CHOICE (log 2). -/
  chain : List (BitVec 8)
  /-- R480: cloister authority, 768 bits; reset 0, DESIGN CHOICE (log 2). -/
  cloister : BitVec 768
  /-- R480: image roots 0 and 1, 768 bits each; reset 0, DESIGN CHOICE (log 2). -/
  image : Vector (BitVec 768) 2
  /-- R480: debug authority, 768 bits; reset 0, DESIGN CHOICE (log 2). -/
  debug : BitVec 768
deriving DecidableEq, Repr

/-- The derating controller (R462, R463, chapter 21). -/
structure Derate where
  /-- R462: the level in force, 2 bits; reset 0. -/
  level : BitVec 2
  /-- R463: the level whose clocks are applied, 2 bits; reset 0. -/
  clocks : BitVec 2
  /-- R463: VDD_NAVE is on its way to this level's value; reset none. -/
  vddTo : Option (BitVec 2)
  /-- R463: the level whose value VDD_NAVE has, 2 bits; reset 0. -/
  vdd : BitVec 2
  /-- R544: the thermal requirement, 2 bits; reset 0. -/
  thermal : BitVec 2
  /-- R544: milliseconds for which TJMAX has stayed below the release value; reset 0. -/
  coolFor : Nat
  /-- R547: the ledger requirement, 1 bit; reset 0. -/
  ledger : Bool
  /-- R547: milliseconds for which USED has stayed within the budget; reset 0. -/
  ledgerFor : Nat
  /-- R548: the slowdowns of the last 24 hourly measurements, newest first, in hundredths of a per cent; reset none. -/
  ageing : List Nat
  /-- R548: seconds for which each lane's eye margin has been below 20 %; reset 0. -/
  eyeLow : Vector Nat 4
  /-- R548: seconds for which it has been at or above 25 %; reset 0. -/
  eyeHigh : Vector Nat 4
  /-- R548: the level each lane's margin requires, with the rate it was measured at; reset none. -/
  eyeReq : Vector (Option (BitVec 2 × BitVec 2)) 4
  /-- R548: the flash indicator requires D1, 1 bit; reset 0. -/
  flash : Bool
  /-- R549: the Nave is down after a thermal shutdown, 1 bit; reset 0. -/
  shutdown : Bool
  /-- R549: the millisecond counts of the thermal shutdowns of the last 24 h; reset none. -/
  shutdowns : List Nat
  /-- R549: the millisecond count at which a Sacristy die sensor last read 110 °C or more; reset 0. -/
  hotAt : Nat
  /-- R549: the Nave starts at D3 after a thermal shutdown, 1 bit; reset 0. -/
  startAtD3 : Bool
deriving DecidableEq, Repr

/-- The states of an image slot (R505). -/
inductive ImgState where
  | empty | staged | trial | trying | confirmed | failed
deriving DecidableEq, Repr

/-- What the latest slot-record word of a slot says (R505). -/
structure ImgSlot where
  /-- STATE; reset empty. -/
  state : ImgState
  /-- DEADLINE, 16 bits; reset 0. -/
  deadline : Nat
  /-- SEQ, 32 bits; reset 0. -/
  seq : Nat
  /-- VERSION, 32 bits; reset 0. -/
  version : BitVec 32
  /-- SVN, 16 bits; reset 0. -/
  svn : Nat
deriving DecidableEq, Repr

/-- A staging under way (R510). -/
structure Staging where
  /-- 0 for kind 1, 1 for kind 2. -/
  kind : Fin 2
  /-- The image length. -/
  len : Nat
  /-- It came over the service UART. -/
  uart : Bool
  /-- The aisle. -/
  aisle : Aisle
deriving DecidableEq, Repr

/-- Updates (chapter 19). -/
structure Updates where
  /-- R504: F0, 0 to 128, fuses; reset 0. -/
  f0 : Nat
  /-- R504: F1, 0 to 128, fuses; reset 0. -/
  f1 : Nat
  /-- R505: the slots: North kind 1, North kind 2, South kind 1, South kind 2; reset empty. -/
  slots : Vector ImgSlot 4
  /-- R506: the aisle of the running image of each kind; reset none. -/
  running : Vector (Option Aisle) 2
  /-- R510: the staging under way; reset none. -/
  staging : Option Staging
  /-- R512: an exchange is measured, 1 bit; reset 0. -/
  measured : Bool
  /-- R511: the deadline of a live exchange is running, in seconds; reset none. -/
  deadline : Option Nat
  /-- R511: the deadline has passed and the Nave reset is requested, 1 bit; reset 0. -/
  expired : Bool
  /-- R514: a Nave start has taken place since power-on reset, 1 bit; reset 0. -/
  startedOnce : Bool
  /-- R514: the Nave runs the recovery loader, 1 bit; reset 0. -/
  recovery : Bool
  /-- R513: BOOTSEL 0b01 waits for ACTIVATE, 1 bit; reset 1 (judged only with that strap). -/
  waitActivate : Bool
deriving DecidableEq, Repr

/-- What a flash word holds (R486); an unlisted word is erased. -/
inductive FlashWord where
  | programmed (data : BitVec 256)
  | zeroised
  | uncorrectable
deriving DecidableEq, Repr

/-- The hidden header of a sector (R493); an unlisted sector has count 0 and is complete. -/
structure SectHdr where
  /-- Erase count, 17 bits. -/
  count : Nat
  /-- An erase has begun and not completed. -/
  incomplete : Bool
deriving DecidableEq, Repr

/-- Flash commands (R490), numbered as OP. -/
inductive FlOp where
  | program | zero | eraseSector | eraseBlock | mread
deriving DecidableEq, Repr

/-- A command that an aisle's controller performs (R490), with the Hatch request it serves if any (R498). -/
structure FlCmd where
  /-- The command. -/
  op : FlOp
  /-- The first word of the aisle, 0 to 262,143. -/
  word : Nat
  /-- Words. -/
  n : Nat
  /-- MREAD mode, 2 bits. -/
  mode : BitVec 2
  /-- The words to program. -/
  data : List (BitVec 256)
  /-- R498: the slot and TAG of the Nave request it serves. -/
  nave : Option (Fin 16 × BitVec 8)
  /-- R498: words of that request still to be programmed after this command. -/
  rest : List (BitVec 256)
deriving DecidableEq, Repr

/-- One aisle (chapter 18). -/
structure FlashAisle where
  /-- R486: the words that are not erased; reset none. -/
  words : List (Nat × FlashWord)
  /-- R496: words that need correction on a read; reset none. -/
  weak : List Nat
  /-- R493: the sectors' headers; reset none. -/
  hdrs : List (Nat × SectHdr)
  /-- R490: the command in progress or suspended; reset none. -/
  cmd : Option FlCmd
  /-- R500: operations that wait for the aisle, oldest first; reset empty. -/
  queue : List FlCmd
  /-- FL_STATUS.SUSP (18): 1 bit; reset 0. -/
  susp : Bool
  /-- R548: words reprogrammed by the scrub pass under way; reset 0. -/
  scrubbed : Nat
  /-- R548: words reprogrammed by the last whole pass; reset 0. -/
  lastPass : Nat
deriving DecidableEq, Repr

/-- Everything of the Sacristy die that is no register (chapters 17 to 21). -/
structure Sac where
  /-- R482: life-cycle state, fuses; reset FIELD, DESIGN CHOICE (log 2). -/
  life : LifeCycle
  /-- R482: the nonce of the latest LC_CHALLENGE that has not served; reset none. -/
  nonce : Option (List (BitVec 8))
  /-- R54: production test access is enabled (TESTEN_N sampled low in MANUFACTURE), 1 bit; reset 0. -/
  testAccess : Bool
  /-- R483: the keys are still to be zeroised, 1 bit; reset 0. -/
  zeroising : Bool
  /-- R480: the key store. -/
  keys : Keys
  /-- R481: a TRNG health test fails, 1 bit; reset 0. -/
  trngFail : Bool
  /-- R456: milliseconds counted by the ticks since power-on reset; reset 0. -/
  ms : Nat
  /-- R453: the first value of the watchdog sequence has been written, 1 bit; reset 0. -/
  wdFirst : Bool
  /-- R457: the last readings, 16 × 12 bits in the units of the telemetry page; reset 0. -/
  adc : Vector Nat 16
  /-- R458: the Sacristy's two sensors in 0.1 °C; reset 250, DESIGN CHOICE (log 5). -/
  sacTemp : Vector Int 2
  /-- R458: the Nave's eight sensors in 0.1 °C, none while not read; reset none. -/
  naveTemp : Vector (Option Int) 8
  /-- R458: TJMAX in 0.1 °C; reset 250, DESIGN CHOICE (log 5). -/
  tjmax : Int
  /-- R545: Nave sensors whose first bad reading since the Nave start has been recorded, 8 bits; reset 0. -/
  badSensors : BitVec 8
  /-- R460, R461: the 256 bytes of the configuration in force; reset the defaults. -/
  conf : List (BitVec 8)
  /-- R461: BUDGET of the newest record, in 10 mW; reset 2,700. -/
  budget : Nat
  /-- R464: the vigil generator. -/
  vigil : Vigil
  /-- The override multiplexer and LDRV_EN. -/
  mux : Mux
  /-- Chapter 20. -/
  safety : Safety
  /-- R473: the heartbeat. -/
  hb : Heartbeat
  /-- R477: the event log. -/
  log : EventLog
  /-- R477: power-on resets since manufacture, 16 bits; reset 1 (this one), kept for ever. -/
  powerons : BitVec 16
  /-- R144: the grant epoch count; reset 0, kept for ever. -/
  epochs : Nat
  /-- R231 (07), R201: CYCLE of the Sacristy core, 64 bits; reset 0. -/
  coreCycle : BitVec 64
  /-- R489: Nave starts since manufacture; reset 0, kept for ever. -/
  naveStarts : Nat
  /-- Chapter 21. -/
  derate : Derate
  /-- Chapter 19. -/
  upd : Updates
  /-- Chapter 18: North and South. -/
  flash : Vector FlashAisle 2
  /-- R513: bytes of a service UART frame received so far; reset empty. -/
  svcRx : List (BitVec 8)
  /-- R513: the answer last sent, CMD and payload; reset empty. -/
  svcTx : List (BitVec 8)
deriving DecidableEq, Repr

/-! ## Low-speed interfaces and debug (chapter 23) -/

/-- An I²C controller beyond its registers (R579, R580). -/
structure I2c where
  /-- R580: queued commands, CMD and DATA, oldest first, at most 16; reset empty. -/
  queue : List (BitVec 3 × BitVec 8)
  /-- R580: received bytes, oldest first, at most 16; reset empty. -/
  rx : List (BitVec 8)
  /-- I2C_STATUS.BUSY (23): a transfer is open or a command waits, 1 bit; reset 0. -/
  busy : Bool
deriving DecidableEq, Repr

/-- An SPI controller beyond its registers (R582). -/
structure Spi where
  /-- R582: queued bytes with chip select and LAST, oldest first, at most 32; reset empty. -/
  tx : List (BitVec 8 × Bool × Bool)
  /-- R582: received bytes, oldest first, at most 32; reset empty. -/
  rx : List (BitVec 8)
  /-- R582: the chip selects that are low, 2 bits; reset 0 (both high). -/
  csLow : BitVec 2
deriving DecidableEq, Repr

/-- A UART beyond its registers (R583, R584). -/
structure Uart where
  /-- R583: characters to send, oldest first, at most 64; reset empty. -/
  tx : List (BitVec 8)
  /-- R584: characters received with BREAK, FE and PE above them, oldest first, at most 64; reset empty. -/
  rx : List (BitVec 11)
  /-- R583: the level of CTS_N, 1 bit; reset 1 (high, an external level), DESIGN CHOICE (log 8). -/
  ctsN : Bool
deriving DecidableEq, Repr

/-- The low-speed I/O unit beyond its registers (chapter 23). -/
structure Lsio where
  /-- The I²C controllers. -/
  i2c : Vector I2c 3
  /-- The SPI controllers. -/
  spi : Vector Spi 2
  /-- The UARTs. -/
  uart : Vector Uart 2
  /-- R585: the levels driven onto the GPIO balls from outside, 32 bits; reset 0, DESIGN CHOICE (log 8). -/
  gpioIn : BitVec 32
  /-- R585: the levels last seen at the GPIO balls, whose changes are edges, 32 bits; reset as gpioIn. -/
  gpioSeen : BitVec 32
deriving DecidableEq, Repr

/-- TAP instructions (R586). -/
inductive TapInstr where
  | idcode | samplePreload | extest | clamp | highz | dbgXfer | bypass
deriving DecidableEq, Repr

/-- The TAP (R586 to R588). -/
structure Tap where
  /-- R586: the instruction in force; reset IDCODE. -/
  ir : TapInstr
  /-- R588: what the boundary cells captured, 192 bits; reset 0, DESIGN CHOICE (log 8). -/
  captured : BitVec 192
  /-- R588: what the boundary cells drive or hold preloaded, 192 bits; reset 0, DESIGN CHOICE (log 8). -/
  cells : BitVec 192
deriving DecidableEq, Repr

/-- A comparator (R593). -/
structure Bp where
  /-- DBG_BP_ADDR (23): 64 bits; reset 0. -/
  addr : BitVec 64
  /-- DBG_BP_CTRL (23): 32 bits; reset 0. -/
  ctrl : BitVec 32
deriving DecidableEq, Repr

/-- The debug module (R589 to R597). -/
structure Dbg where
  /-- DBG_GATE (23): OPEN, SCAN, ENCL and the life-cycle state, 10 bits; reset 0, set before NC0 leaves reset. -/
  gate : BitVec 32
  /-- DBG_SEL (23): 5 bits; reset 0. -/
  sel : Fin 32
  /-- DBG_GROUP (23): 32 bits; reset 0. -/
  group : BitVec 32
  /-- DBG_RSEL (23): [15:5]; reset 0. -/
  rsel : BitVec 32
  /-- DBG_RDATA0 to 3 (23): 128 bits; reset 0. -/
  rdata : BitVec 128
  /-- DBG_RTAG (23): 1 bit; reset 0. -/
  rtag : Bool
  /-- DBG_MADDR (23): 44 bits; reset 0. -/
  maddr : BitVec 44
  /-- DBG_MSTAT.TAG (23): 1 bit; reset 0. -/
  mtag : Bool
  /-- R593: six comparators for each core. -/
  bps : Vector (Vector Bp 6) 4
  /-- DBG_MSG_OUT (23): 16 bytes; reset 0. -/
  msgOut : BitVec 128
  /-- R596: the outbound message is FULL, 1 bit; reset 0. -/
  outFull : Bool
  /-- DBG_SW_MSG, read as DBG_MSG_IN (23): 16 bytes; reset 0. -/
  msgIn : BitVec 128
  /-- R596: the inbound message is FULL, 1 bit; reset 0. -/
  inFull : Bool
  /-- R589: STATUS that the next capture loads, 2 bits; reset 0. -/
  status : BitVec 2
  /-- R589: DATA that the next capture loads, 32 bits; reset 0. -/
  data : BitVec 32
deriving DecidableEq, Repr

/-! ## The whole machine -/

/-- The state of the package. -/
structure State where
  /-- Fuses. -/
  chip : Chip
  /-- Straps. -/
  straps : Straps
  /-- Supply, ledger and start. -/
  power : Power
  /-- Town time. -/
  tt : TownTime
  /-- R7 (00): registers by physical address (Nave) or 2^44 plus the Sacristy address, 32 bits each, addresses rising;
  an unlisted register holds its reset value; reset nothing listed. -/
  regs : List (Nat × BitVec 32)
  /-- R6 (00): the latch of each pair, by the low word's address, 32 bits; reset 0. -/
  latches : List (Nat × BitVec 32)
  /-- R6 (00): the write hold of each pair, by the low word's address, 32 bits; reset 0. -/
  holds : List (Nat × BitVec 32)
  /-- R9: W1C bits that hardware has set since the last timer cycle, by register: its word before that and the bits; reset none. -/
  fresh : List (Nat × BitVec 32 × BitVec 32)
  /-- R9: W1S bits that software has set since the last timer cycle, by register; reset none. -/
  wset : List (Nat × BitVec 32)
  /-- Memory. -/
  mem : Mem
  /-- The caches. -/
  caches : Caches
  /-- The Screen. -/
  screen : Screen
  /-- Stalls 8 × core + stall, and the Sacristy core as number 32. -/
  stalls : Vector Stall 33
  /-- NC0 to NC3. -/
  cores : Vector Core 4
  /-- Events. -/
  events : Events
  /-- The ring. -/
  ring : Ring
  /-- TP0 to TP3. -/
  tp : Vector TPortState 4
  /-- The cipher engine. -/
  cph : Cph
  /-- The Clerestory. -/
  clr : Clr
  /-- The timers. -/
  tmr : Tmr
  /-- The DALI engine. -/
  dali : Dali
  /-- The Hatch. -/
  hatch : Hatch
  /-- The Sacristy. -/
  sac : Sac
  /-- Low-speed I/O. -/
  lsio : Lsio
  /-- The TAP. -/
  tap : Tap
  /-- The debug module. -/
  dbg : Dbg
  /-- R48, R56 (02): VIGIL_N and NRST_OUT_N, 2 bits; reset 0 (both low). -/
  pins : BitVec 2
  /-- The model's own field: what the last register read by an initiator that is no instruction returned; reset 0,
  DESIGN CHOICE (log 9). -/
  answer : BitVec 64
  /-- The model's own field: counts the free values drawn; reset 0, DESIGN CHOICE (log 10). -/
  freeCtr : Nat
  /-- The model's own field: the commands that wait, first in, first out; reset empty. -/
  pending : List Instr
deriving DecidableEq, Repr

/-- Faults: the spec gives every command of the table an effect, so no meaning raises one of them. -/
inductive Fault where
  /-- Raised by no command; safe: it stands here so that the type has a name to stop with. -/
  | stuck
deriving DecidableEq, Repr

/-- Refusals. -/
inductive Refusal where
  /-- Raised by an arm of `exec` that has no meaning yet; safe: the machine stops by name. -/
  | notModelled (mnemonic : String)
deriving DecidableEq, Repr

/-- An empty window. -/
def Win.zero : Win := { p := Vector.replicate 8 Capv.zero, x := Vector.replicate 8 Capv.zero }

/-- A stall as Nave reset leaves it (R147, R231). -/
def Stall.init : Stall :=
  { state := .off, prio := 0, s := Vector.replicate 8 Capv.zero, win := Vector.replicate 16 Win.zero,
    base := Vector.replicate 8 Capv.zero, pcc := Capv.zero, sr := 0, tsbr := Capv.zero, shut := 0, wptr := 0, live := 1, evmask := 0,
    evpend := 0, stowp := Capv.zero, squint := 0, fpsr := 0, fpcr := 0, xroot := 0, run := 0, waitFor := none, sbuf := [],
    farOp := none, outcome := none, squintReq := none, stopReq := false, haltReq := none, haltedFrom := .off,
    haltCause := 0, bpSkip := false, stepping := false, tseq := 0, xinvs := [] }

/-- Stall 0 of NC0 as Nave reset leaves it: RUNNING with the boot root in PCC and S0 (R109, R147). -/
def Stall.boot : Stall :=
  { Stall.init with state := .running, pcc := Cap.bootRoot, s := vset Stall.init.s 0 Cap.bootRoot }

/-- A core as Nave reset leaves it. -/
def Core.init : Core :=
  { cycle := 0, lastRan := 0, issued := false, ran := 0, tlb := [], walk := [], xinv := [], fence := none }

/-- A lane as Nave reset leaves it. -/
def Lane.init : Lane :=
  { state := .off, rate := 0, los := false, prot := false, peer := none, peerRate := 0, txKey := none, rxKey := none, badRun := 0,
    rfRun := 0, goodRun := 0, txRf := false, txRetrain := false, rxRetrain := false, txInv := false, measured := false, lastTx := none, delays := [] }

/-- A ring port as Nave reset leaves it: no lane is in service. -/
def RPort.init : RPort :=
  { failed := true, folded := false, planned := false, upSince := 0, txNum := 0, txBuf := [], txFirst := none, txEnd := 0,
    rxLeft := 0, rxPart := [], rxLost := false }

/-- A ring direction as Nave reset leaves it. -/
def RingDir.init : RingDir :=
  { transit := Vector.replicate 4 [], loc := Vector.replicate 4 [], wicket := none, freed := Vector.replicate 4 0,
    sent := Vector.replicate 4 0, credited := Vector.replicate 4 0, wicketFree := true, ctrlBytes := 0, addBytes := 0,
    capBytes := 0, congested := false, waited := false, beacon := none, tenTx := [],
    fairHit := false, lastTx := none, markerTx := none, markerAt := none, safeOut := [], safeIdx := 0, beaconTx := none,
    foldSeen := false }

/-- The ring switch as Nave reset leaves it, in lantern role. -/
def Ring.init : Ring :=
  { lanes := Vector.replicate 4 Lane.init,
    ports := Vector.replicate 2 RPort.init,
    dirs := Vector.replicate 2 RingDir.init, node := none, enumId := none, enumBusy := false, enumPort := 0,
    enumSecond := false, enumerated := false, bays := 0, assigned := [], overJoin := [], taken := none, lastMarker := none,
    times := [], nodes := 0, slotTx := [],
    isolated := false, everMarked := false, stopped := false, seq := Vector.replicate 4 0, bcastSeen := [],
    safeTx := none, safeSeq := 0, safeRx := [], safeLast := [], ctrlTx := [], queued := 0, ctrlRx := [], reliable := [],
    reliableQ := [], placed := [], farIn := [], ledger := [], evicted := false }

/-- A tenant port as Nave reset leaves it; 524,288,000 thousandths of a bit are 64 KiB. -/
def TPortState.init : TPortState :=
  { block := false, fecLock := false, lf := false, rf := false, fecUsed := true, bucketH := 524288000, bucketL := 524288000,
    bucketAt := 0, egressH := [], egressL := [], txd := none, turn := 0, lastTx := none }

/-- The cipher engine as Nave reset leaves it. -/
def Cph.init : Cph :=
  { slots := Vector.replicate 16 { state := .idle, code := 0, prio := 0, order := 0, job := none, ctx := [] },
    running := none, nextOrder := 1, entropyFail := false, drbgReqs := 0, ctxKey := false }

/-- The Clerestory as Nave reset leaves it. -/
def Clr.init : Clr :=
  { run := false, camlock := false, camLost := false, thmok := false, active := 0, swapDue := false, level := 0, levelDue := none,
    banks := Vector.replicate 2 Bank.empty,
    zones := Vector.replicate 16 { en := false, pts := Vector.replicate 4 (0, 0) }, zonesDue := [],
    homog := Vector.replicate 9 0, homogDue := none, edges := Vector.replicate 7 0, background := [], tracks := [],
    nextTrack := 1, lastFrame := none, periodStart := none, periodFrames := 0, periodFlags := 0,
    counts := Vector.replicate 16 { cls := Vector.replicate 6 0, bins := Vector.replicate 8 0, occ := 0 },
    noint8 := false }

/-- The timer block as Nave reset leaves it, at a count of timer cycles. -/
def Tmr.init (cycles : Nat) : Tmr :=
  { cycles := cycles, gt := Vector.replicate 16 { state := .stopped, presc := 0 },
    lp := Vector.replicate 8 { state := .stopped, count := 0, presc := 0, clkdiv := 0, phase := 0 },
    ed := Vector.replicate 16 Ed.init, pending := false, trig := 0 }

/-- An EMPTY doorbell slot (R472). -/
def HSlot.empty : HSlot := { words := Vector.replicate 15 0, full := false }

/-- The Hatch with every slot EMPTY (R472). -/
def Hatch.init : Hatch := { tx := Vector.replicate 16 HSlot.empty, rx := Vector.replicate 16 HSlot.empty, order := [], late := [] }

/-- Low-speed I/O as Nave reset leaves it, the external levels kept. -/
def Lsio.init (cts : Vector Bool 2) (gpio : BitVec 32) : Lsio :=
  { i2c := Vector.replicate 3 { queue := [], rx := [], busy := false },
    spi := Vector.replicate 2 { tx := [], rx := [], csLow := 0 },
    uart := cts.map (fun c => { tx := [], rx := [], ctsN := c }), gpioIn := gpio, gpioSeen := gpio }

/-- The TAP after reset (R586). -/
def Tap.init : Tap := { ir := .idcode, captured := 0, cells := 0 }

/-- The debug module as Nave reset leaves it. -/
def Dbg.init : Dbg :=
  { gate := 0, sel := 0, group := 0, rsel := 0, rdata := 0, rtag := false, maddr := 0, mtag := false,
    bps := Vector.replicate 4 (Vector.replicate 6 { addr := 0, ctrl := 0 }), msgOut := 0, outFull := false, msgIn := 0,
    inFull := false, status := 0, data := 0 }

/-- Supervision of a string at a Sacristy start. -/
def StringSup.init : StringSup :=
  { sinceLit := 3125, openFor := 0, openClear := 0, shortFor := 0, shortClear := 0, hotFor := 0, hotClear := 0, coolFor := 0,
    ntcBad := 0, ntcGood := 0, ntcCut := false, cut := false, latched := false, cuts := [] }

/-- Safety at power-on reset: the Nave is not running (cause 16). -/
def Safety.init : Safety :=
  { causes := 0x100, pdNight := true, pdBelow := 0, pdAbove := 0, pdFault := false, pdBad := 0, pdGood := 0,
    schedNight := true, darkFor := 0, releaseFor := 0, str := Vector.replicate 2 StringSup.init,
    testFailed := false }

/-- The derating controller at power-on reset. -/
def Derate.init : Derate :=
  { level := 0, clocks := 0, vddTo := none, vdd := 0, thermal := 0, coolFor := 0, ledger := false, ledgerFor := 0,
    ageing := [], eyeLow := Vector.replicate 4 0, eyeHigh := Vector.replicate 4 0, eyeReq := Vector.replicate 4 none,
    flash := false, shutdown := false, shutdowns := [], hotAt := 0, startAtD3 := false }

/-- An erased aisle. -/
def FlashAisle.init : FlashAisle :=
  { words := [], weak := [], hdrs := [], cmd := none, queue := [], susp := false, scrubbed := 0, lastPass := 0 }

/-- The Sacristy at power-on reset. -/
def Sac.init : Sac :=
  { life := .field, nonce := none, testAccess := false, zeroising := false,
    keys := { device := 0, chain := [], cloister := 0, image := Vector.replicate 2 0, debug := 0 }, trngFail := false,
    ms := 0, wdFirst := false, adc := Vector.replicate 16 0, sacTemp := Vector.replicate 2 250,
    naveTemp := Vector.replicate 8 none, tjmax := 250, badSensors := 0, conf := [], budget := 2700,
    vigil := { pm := 0, period := 0, rated0 := 0, rated1 := 0, out := 0, arc := 0, dim := 0, repeatS := 0, count := 0, phase := 0 },
    mux := { taken := true, sacLp := 0xFF, sacDali := true, sacDim := true, ldrvEn := 0 }, safety := Safety.init,
    hb := { seq := 0, posted := [], missed := 0, armed := false, grace := false },
    log := { seq := 0, bucket := 256000, naveBucket := 64000, lost := 0, drops := 0, naveDrops := 0, sev3 := [],
             queue := [], place := 0 },
    powerons := 1, epochs := 0, coreCycle := 0, naveStarts := 0, derate := Derate.init,
    upd := { f0 := 0, f1 := 0,
             slots := Vector.replicate 4 { state := .empty, deadline := 0, seq := 0, version := 0, svn := 0 },
             running := Vector.replicate 2 none, staging := none, measured := false, deadline := none, expired := false,
             startedOnce := false, recovery := false, waitActivate := true },
    flash := Vector.replicate 2 FlashAisle.init, svcRx := [], svcTx := [] }

/-- Power and start at power-on reset (R81 step 1). -/
def Power.init : Power :=
  { vinOn := false, brownOut := false, uvWait := false, sacPhase := .porHeld, vigilArmed := false, navePhase := .down,
    boWait := true, vpre := false, rails := [], cycleWait := false, ddrResetN := 0, booting := false, banks := Vector.replicate 4 .openBank, refGood := false,
    refJudged := false, srefGood := true, extRstN := true, vinMv := 0, budget := 0, starting := none, started := 0, toStart := 0,
    outUntilStart := 0, admitPaused := false, nextCauses := 1, starts := 0, relocking := [], sacCauses := 0, porCauses := 1 }

/-- Town time at power-on reset (R95, R99). -/
def TownTime.init : TownTime :=
  { now := 0, trimPpb := 0, frac := 0, setWait := none, ppsOut := false, inUse := false, sac := 0, sacSynced := false }

/-- Memory at power-on reset. -/
def Mem.init : Mem :=
  { cells := [], tags := [], poisonLines := [], poisonGranules := [], latent := [], latentTags := [], written := [],
    chan := Vector.replicate 2 { state := .notStarted, dev := none, temp := 0 }, mapFixed := false }

/-- The caches at Nave reset: empty. -/
def Caches.init : Caches :=
  { l1i := Vector.replicate 4 [], l1d := Vector.replicate 4 [], l2 := [], tagc := [], chkc := [] }

/-- The Screen at Nave reset. -/
def Screen.init : Screen :=
  { pendBase := Vector.replicate 32 0, pendLimit := Vector.replicate 32 0, pendRights := Vector.replicate 32 0,
    old := [], log := [] }

/-- Events at Nave reset. -/
def Events.init : Events := { running := 0, held := 0, swHeld := Vector.replicate 8 0, flight := [], levels := 0, crossings := [] }

/-- The package right after power-on reset: power-on reset is still held (R81 step 1), the Nave die is down, the
Sacristy drives the lamp outputs (R83), and nothing waits in the queue. -/
def State.reset : State :=
  { chip := { variant := .hkw910, naveRev := 1, sacRev := 1, serial := 1,
              dram := Vector.replicate 2 (some { dens := 2, ranks := 1, widthOk := true }) },
    straps := { bootsel := 0, role := false, testenN := true }, power := Power.init, tt := TownTime.init, regs := [],
    latches := [], holds := [], fresh := [], wset := [], mem := Mem.init, caches := Caches.init, screen := Screen.init, stalls := vset (Vector.replicate 33 Stall.init) 0 Stall.boot,
    cores := Vector.replicate 4 Core.init, events := Events.init, ring := Ring.init,
    tp := Vector.replicate 4 TPortState.init, cph := Cph.init, clr := Clr.init, tmr := Tmr.init 0,
    dali := { busy := false, fault := false, ask := false, sacFrame := none, last := none }, hatch := Hatch.init, sac := Sac.init,
    lsio := Lsio.init (Vector.replicate 2 true) 0, tap := Tap.init, dbg := Dbg.init, pins := 0, answer := 0,
    freeCtr := 0, pending := [] }

end Sys2Proof.Machine
end

