-- ==== Sys2Proof/Machine/Ops.lean ====
section
/-!
DEFINITION. Sys2Proof/Machine/Ops.lean: the named operations over registers, memory, free values, events and unit
readiness that the meanings share.
-/
namespace Sys2Proof.Machine

/-- What a command answers. -/
abbrev Out := Host.Outcome State Fault Refusal

/-! ## Identity -/

/-- R17, R18: the gateway role is in effect. -/
def State.gateway (s : State) : Bool := s.straps.role && s.chip.variant == .hkw910

/-- The highest lane rate mode of the variant (RING_LANE_CFG reset line). -/
def Variant.rateMax : Variant → Nat
  | .hkw910 => 3
  | .hkw730 => 3
  | .hkw530 => 1

/-- R32: SYSCTL_PRESENT by variant. -/
def Variant.present : Variant → BitVec 23
  | .hkw910 => 0x7FFFFF
  | .hkw730 => 0x7FF03F
  | .hkw530 => 0x7F6033

/-- SYSCTL_ID.PART (01). -/
def Variant.part : Variant → BitVec 16
  | .hkw910 => 0x0910
  | .hkw730 => 0x0730
  | .hkw530 => 0x0530

/-- A unit exists on this part (R32). -/
def State.hasUnit (s : State) (u : Nat) : Bool := s.chip.variant.present.getLsbD u

/-! ## Registers -/

/-- The word stored in a register (an unlisted one holds its reset value). -/
def State.reg (s : State) (a : Nat) : W32 :=
  match AMap.get? s.regs a with
  | some v => v
  | none => regReset s.chip.variant.rateMax s.gateway a

/-- Store a word in a register; the reset value is not listed. -/
def State.setReg (s : State) (a : Nat) (v : W32) : State :=
  { s with regs := if v = regReset s.chip.variant.rateMax s.gateway a then AMap.erase s.regs a
                   else AMap.set s.regs a v }

/-- Change a register by a function of its word. -/
def State.modReg (s : State) (a : Nat) (f : W32 → W32) : State := s.setReg a (f (s.reg a))
/-- Set bits of a register. -/
def State.orReg (s : State) (a : Nat) (m : W32) : State := s.modReg a (fun v => v ||| m)
/-- Clear bits of a register. -/
def State.clrReg (s : State) (a : Nat) (m : W32) : State := s.modReg a (fun v => v &&& ~~~ m)
/-- Replace a field of a register. -/
def State.setField (s : State) (a hi lo v : Nat) : State := s.modReg a (fun w => putBits w hi lo v)
/-- A field of a register. -/
def State.field (s : State) (a hi lo : Nat) : Nat := bits (s.reg a) hi lo
/-- A bit of a register. -/
def State.flag (s : State) (a i : Nat) : Bool := bit (s.reg a) i
/-- The 64-bit value of a pair (R6). -/
def State.pair (s : State) (a : Nat) : W64 := (s.reg (a + 4) ++ s.reg a : BitVec 64)
/-- Set both words of a pair. -/
def State.setPair (s : State) (a : Nat) (v : W64) : State :=
  (s.setReg a (v.truncate 32)).setReg (a + 4) ((v >>> 32).truncate 32)
/-- Count in a 64-bit counter. -/
def State.count (s : State) (a : Nat) (n : Nat := 1) : State := s.setPair a (s.pair a + BitVec.ofNat 64 n)

/-- R9: bits m of a register, as hardware has set them in this cycle of its unit. -/
def noteSet (l : List (Nat × W32 × W32)) (a : Nat) (old m : W32) : List (Nat × W32 × W32) :=
  match AMap.get? l a with
  | none => AMap.set l a (old, m)
  | some (o, k) => AMap.set l a (o, k ||| m)
/-- R7, R9: hardware sets W1C bits of a register; until the next timer cycle it is noted that it has. -/
def State.hwSet (s : State) (a : Nat) (m : W32) : State :=
  { s.orReg a m with fresh := noteSet s.fresh a (s.reg a) m }
/-- R9: the bits that hardware has set in a register since the last timer cycle. -/
def State.freshBits (s : State) (a : Nat) : W32 := match AMap.get? s.fresh a with
  | some (_, m) => m
  | none => 0
/-- R7, R9: software sets W1S bits of a register; until the next timer cycle it is noted that it has. -/
def State.swSet (s : State) (a : Nat) (m : W32) : State :=
  { s.orReg a m with wset := AMap.set s.wset a ((AMap.get? s.wset a).getD 0 ||| m) }

/-- R9: hardware clears W1S bits of a register. Of those that software has set since the last timer cycle it is free whether that
was in the same cycle; if so, they are set (log 39). -/
def State.hwClear (s : State) (a : Nat) (m : W32) : State :=
  let hit := (AMap.get? s.wset a).getD 0 &&& m
  if hit = 0 then s.clrReg a m
  else
    let w := Config.freeBool s.freeCtr
    { s.clrReg a (if w then m &&& ~~~ hit else m) with freeCtr := s.freeCtr + 1 }

/-! ## Free values (log 10) -/

/-- Draw a free word. -/
def State.drawWord (s : State) : W64 × State := (Config.freeWord s.freeCtr, { s with freeCtr := s.freeCtr + 1 })
/-- Draw a free choice. -/
def State.drawBool (s : State) : Bool × State := (Config.freeBool s.freeCtr, { s with freeCtr := s.freeCtr + 1 })
/-- Draw n free bytes. -/
def State.drawBytes (s : State) (n : Nat) : List Byte × State :=
  ((List.range n).map (Config.freeByte s.freeCtr), { s with freeCtr := s.freeCtr + 1 })

/-! ## Bytes of memory -/

/-- The byte at a key: an unlisted byte is 0 (R81 step 10, R314, R467). -/
def Memory.get (m : Memory) (a : Nat) : Byte := (AMap.get? m a).getD 0
/-- Write a byte; 0 is not listed. -/
def Memory.put (m : Memory) (a : Nat) (b : Byte) : Memory := if b = 0 then AMap.erase m a else AMap.set m a b
/-- Read n bytes. -/
def Memory.read (m : Memory) (a n : Nat) : List Byte := (List.range n).map (fun i => Memory.get m (a + i))
/-- Write bytes. -/
def Memory.write (m : Memory) (a : Nat) : List Byte → Memory
  | [] => m
  | b :: bs => Memory.write (Memory.put m a b) (a + 1) bs
/-- The canonical form: addresses strictly rise and no listed byte is 0. -/
def Memory.wf (m : Memory) : Bool := AMap.sorted m && m.all (fun c => c.2 != 0)

/-- Read bytes of the state's memory. -/
def State.readMem (s : State) (a n : Nat) : List Byte := Memory.read s.mem.cells a n
/-- Write bytes of the state's memory. -/
def State.writeMem (s : State) (a : Nat) (bs : List Byte) : State :=
  { s with mem := { s.mem with cells := Memory.write s.mem.cells a bs } }
/-- Drop every byte of a range (it then reads 0). -/
def State.clearMem (s : State) (lo hi : Nat) : State :=
  { s with mem := { s.mem with cells := s.mem.cells.filter (fun c => c.1 < lo ∨ hi ≤ c.1) } }
/-- The tag of the granule that holds an address. -/
def State.tagAt (s : State) (a : Nat) : Bool := s.mem.tags.contains (a / 16)
/-- Set or clear the tag of the granule that holds an address. -/
def State.setTag (s : State) (a : Nat) (t : Bool) : State :=
  { s with mem := { s.mem with tags := if t then insertNat s.mem.tags (a / 16)
                                       else s.mem.tags.filter (fun g => g ≠ a / 16) } }
/-- Clear the tags of every granule that n bytes touch (R125). -/
def State.clearTags (s : State) (a n : Nat) : State :=
  { s with mem := { s.mem with tags := s.mem.tags.filter (fun g => (g + 1) * 16 ≤ a ∨ a + n ≤ g * 16) } }

/-- The Hatch shared window (R467): read and write. -/
def State.winRead (s : State) (off n : Nat) : List Byte := s.readMem (aWindow + off) n
/-- A write of the Hatch shared window. -/
def State.winWrite (s : State) (off : Nat) (bs : List Byte) : State := s.writeMem (aWindow + off) bs

/-! ## Stalls and cores -/

/-- A stall by number, 32 for the Sacristy core. -/
def State.stall (s : State) (i : Nat) : Stall := vget s.stalls i Stall.init
/-- Change a stall. -/
def State.modStall (s : State) (i : Nat) (f : Stall → Stall) : State := { s with stalls := vmod s.stalls i f }
/-- A core by number. -/
def State.core (s : State) (c : Nat) : Core := vget s.cores c Core.init
/-- Change a core. -/
def State.modCore (s : State) (c : Nat) (f : Core → Core) : State := { s with cores := vmod s.cores c f }
/-- READY of a unit (R33). -/
def State.unitReady (s : State) (u : Nat) : Bool := bit (s.reg aReady) u
/-- A stall is enclosed (R163). -/
def State.enclosed (s : State) (i : Nat) : Bool := bit (s.reg aEnclose) i && decide (i < 32)

/-- R169: the stall of a core that is RUNNING. -/
def State.runningOn (s : State) (c : Nat) : Option Nat :=
  ((List.range 8).map (fun n => 8 * c + n)).find? (fun i => (s.stall i).state == .running)

/-! ## Events (R170 to R174, R249 to R252) -/

/-- An occurrence that its limiter delivers sets out for its targets (R249). -/
def State.deliver (s : State) (n : Nat) : State :=
  let t := if n < 55 then s.reg (aTarget n) else 0
  if t = 0 ∨ s.power.navePhase = .down ∨ s.power.navePhase = .verified then s
  else { s with events := { s.events with flight := s.events.flight ++ [{ n := n, targets := t }] } }

/-- R174: an occurrence of source n meets its limiter; a LIMIT written meanwhile counts from the next interval. -/
def State.raise (s : State) (n : Nat) : State :=
  if n ≥ 55 ∨ s.power.navePhase = .down ∨ s.power.navePhase = .verified then s
  else if bit s.events.running n then
    if bit s.events.held n then s.count (aLimited n)
    else { s with events := { s.events with held := putBit s.events.held n true } }
  else if s.field (aLimit n) 15 0 = 0 then s.deliver n
  else (s.deliver n) |> fun s => { s with events := { s.events with running := putBit s.events.running n true } }

/-- R251: a level source produces an occurrence when it becomes asserted. -/
def State.checkLevels (s : State) : State :=
  let up := s.reg aRise ≠ 0
  let dn := s.reg aFall ≠ 0
  let was := s.events.levels
  let s := { s with events := { s.events with levels := putBit (putBit s.events.levels 0 up) 1 dn } }
  let s := if up ∧ ¬ bit was 0 then s.raise 44 else s
  if dn ∧ ¬ bit was 1 then s.raise 45 else s

/-- R249: event n is deliverable in a stall. -/
def State.deliverable (s : State) (i n : Nat) : Bool :=
  let t := s.stall i
  bit t.evpend n && bit t.evmask n && bit (s.reg (aMode n)) 0 && decide (bits t.sr 2 0 < s.field (aMode n) 6 4) && !bit t.sr 3

/-- R172: an event of the effective mask of the WAIT that suspends a stall is pending. -/
def Stall.waitMet (t : Stall) : Bool := match t.waitFor with
  | some (_, m) => t.evpend &&& m &&& t.evmask != 0
  | none => false

/-- R172, R250: a waiting stall with an event that ends its WAIT, or one deliverable in it, becomes READY. The effective mask of a
suspended WAIT is its own mask with EVMASK as it stands now, not as it stood at the WAIT, on which the spec is silent (DESIGN
CHOICE, log 43). -/
def State.rouse (s : State) (i : Nat) : State :=
  if (s.stall i).state = .waiting ∧ ((s.stall i).waitMet ∨ (List.range 55).any (s.deliverable i)) then
    s.modStall i (fun t => { t with state := .ready })
  else s

/-- R250: every waiting stall for which a changed route makes an event deliverable becomes READY. -/
def State.rouseAll (s : State) : State := (List.range 32).foldl State.rouse s

/-- R249, R252, R172, R250: event n becomes pending in a stall; a waiting stall that it wakes becomes READY. -/
def State.pend (s : State) (i n : Nat) : State :=
  if (s.stall i).state = .off ∨ (s.stall i).state = .lockdown ∨ ¬ s.hasUnit (i / 8) ∨ s.flag aPark (i / 8) then s
  else (s.modStall i (fun t => { t with evpend := putBit t.evpend n true })).rouse i

/-- R456: an event of the Sacristy core becomes pending in its one stall. -/
def State.sacEvent (s : State) (n : Nat) : State :=
  let st := s.stall 32
  let st := { st with evpend := putBit st.evpend n true }
  { s with stalls := vset s.stalls 32 (if st.state = .waiting ∧ st.waitMet then { st with state := .ready } else st) }

/-- The Sacristy firmware runs. -/
def State.fw (s : State) : Bool := s.power.sacPhase == .running

/-- NC0 runs (R56, R83). -/
def State.naveRuns (s : State) : Bool := s.power.navePhase == .running

/-- The Nave die is powered and out of reset. -/
def State.naveUp (s : State) : Bool := s.power.navePhase == .base || s.power.navePhase == .running

/-! ## Banks and islands (R41 to R43, R92, R599) -/

/-- R41 to R43: I/O bank A to D (0 to 3) is powered: the Nave rails are up and its VDDIO balls are not open. -/
def State.bankUp (s : State) (b : Nat) : Bool := s.power.railsUp && vget s.power.banks b .openBank != .openBank

/-- R599: the island in which the register block of a unit (by SYSCTL bit) answers. -/
def unitIsland (u : Nat) : Island :=
  if 4 ≤ u ∧ u < 8 then .lanePair (Fin.ofNat 2 (u % 2))
  else if 8 ≤ u ∧ u < 12 then .tenant
  else match u with
    | 12 => .clerestory
    | 13 => .cipher
    | 17 => .timers
    | 19 => .ringSwitch
    | 20 => .sacristy
    | 21 => .lsio
    | 22 => .lsio
    | _ => .l2

/-- R92: an island holds its handshakes while its clock relocks. -/
def State.holds92 (s : State) (i : Island) : Bool := s.power.relocking.contains i

/-! ## Units (R33, R38) -/

/-- A READY bit rises (R38). -/
def State.unitUp (s : State) (u : Nat) : State :=
  if s.unitReady u ∨ ¬ s.hasUnit u then s
  else ((s.modReg aReady (fun w => putBit w u true)).hwSet aRise (BitVec.ofNat 32 (2 ^ u))).checkLevels

/-- A READY bit falls (R38). -/
def State.unitDown (s : State) (u : Nat) : State :=
  if ¬ s.unitReady u then s
  else ((s.modReg aReady (fun w => putBit w u false)).hwSet aFall (BitVec.ofNat 32 (2 ^ u))).checkLevels

/-! ## Units that do not answer (R35, R36) -/

/-- R35, R36: what an access of a permitted size leaves behind in an absent unit, or in a present one that is not ready. -/
def State.missAbsent (s : State) (u : Nat) : State :=
  if s.flag aSeen u then s else (s.orReg aSeen (BitVec.ofNat 32 (2 ^ u))).raise 46
/-- R36: the same for a present unit that is not ready. -/
def State.missEarly (s : State) (u : Nat) : State := s.hwSet aEarly (BitVec.ofNat 32 (2 ^ u))

/-- R35, R36, R92: what a command on a unit's registers does; nothing but EARLY while the unit is not ready, nothing but SEEN
where it is absent, and nothing while its island holds its handshakes, since the access has not arrived yet. -/
def State.unitAct (s : State) (u : Nat) (f : State → State) : State :=
  if s.unitReady u then (if s.holds92 (unitIsland u) then s else f s)
  else if ¬ s.naveUp then s
  else if s.hasUnit u then s.missEarly u else s.missAbsent u

/-- Bytes of a byte list as a number, missing bytes 0. -/
def leField (bs : List Byte) (off n : Nat) : Nat := ofBytes ((bs.drop off).take n)

end Sys2Proof.Machine
end

