-- ==== Sys2Proof/Machine/Windows.lean ====
section
/-!
DEFINITION. Sys2Proof/Machine/Windows.lean: the register file of a context (R107, R148 to R150) and the exception classes
that its instructions end in.
-/
namespace Sys2Proof.Machine

/-- R150, R202: the windows of a context: 16 in a Nave stall, 4 in the Sacristy core. -/
def nwin (i : Nat) : Nat := if i < 32 then 16 else 4

/-- A window of a stall. -/
def Stall.window (t : Stall) (w : Nat) : Win := vget t.win w Win.zero

/-- R149: the value a specifier names, with m windows in the ring. -/
def Stall.reg (t : Stall) (m : Nat) (r : Reg) : Capv :=
  let k := r.toNat % 8
  match r.toNat / 8 with
  | 0 => vget t.s k Cap.null
  | 1 => if t.live = 1 then vget t.base k Cap.null else vget (t.window ((t.wptr + m - 1) % m)).x k Cap.null
  | 2 => vget (t.window t.wptr).p k Cap.null
  | _ => vget (t.window t.wptr).x k Cap.null

/-- R149: the register that a specifier names takes a value. -/
def Stall.setReg (t : Stall) (m : Nat) (r : Reg) (v : Capv) : Stall :=
  let k := r.toNat % 8
  match r.toNat / 8 with
  | 0 => { t with s := vset t.s k v }
  | 1 =>
    if t.live = 1 then { t with base := vset t.base k v }
    else { t with win := vmod t.win ((t.wptr + m - 1) % m) (fun w => { w with x := vset w.x k v }) }
  | 2 => { t with win := vmod t.win t.wptr (fun w => { w with p := vset w.p k v }) }
  | _ => { t with win := vmod t.win t.wptr (fun w => { w with x := vset w.x k v }) }

/-- Read a register of a context. -/
def State.rd (s : State) (i : Nat) (r : Reg) : Capv := (s.stall i).reg (nwin i) r
/-- Write a register of a context. -/
def State.wr (s : State) (i : Nat) (r : Reg) (v : Capv) : State := s.modStall i (fun t => t.setReg (nwin i) r v)
/-- Write an integer (R107: the upper half and the tag are 0). -/
def State.wrInt (s : State) (i : Nat) (r : Reg) (v : W64) : State := s.wr i r (Cap.ofInt v)

/-- R119: PCC moves to the next instruction, as CSETADDR sets a cursor. -/
def Stall.advance (t : Stall) : Stall := { t with pcc := Cap.setAddr t.pcc (Cap.addr t.pcc + 4) }

/-- R235: vector numbers. -/
def vIllegal : Nat := 1
/-- PRIV. -/
def vPriv : Nat := 2
/-- CAP_TAG. -/
def vTag : Nat := 3
/-- CAP_KIND. -/
def vKind : Nat := 4
/-- CAP_PERM. -/
def vPerm : Nat := 5
/-- CAP_BOUNDS. -/
def vBounds : Nat := 6
/-- NX_FETCH. -/
def vNxFetch : Nat := 7
/-- PAGE_NP. -/
def vPageNp : Nat := 8
/-- PAGE_RIGHTS. -/
def vPageRights : Nat := 9
/-- KEY_DENY. -/
def vKeyDeny : Nat := 10
/-- SUPER_GUARD. -/
def vSuperGuard : Nat := 11
/-- SCREEN_DENY. -/
def vScreen : Nat := 12
/-- NEST. -/
def vNest : Nat := 13
/-- SQUINT_DENY. -/
def vSquint : Nat := 14
/-- FAR_REVOKED. -/
def vFarRevoked : Nat := 15
/-- FAR_TIMEOUT. -/
def vFarTimeout : Nat := 16
/-- FAR_BUSY. -/
def vFarBusy : Nat := 17
/-- FAR_EXPORT. -/
def vFarExport : Nat := 18
/-- FP. -/
def vFp : Nat := 19
/-- TRAP. -/
def vTrap : Nat := 20
/-- MACHINE_CHECK. -/
def vMachine : Nat := 21
/-- INTERRUPT. -/
def vInterrupt : Nat := 32
/-- ESCALATE. -/
def vEscalate : Nat := 63

end Sys2Proof.Machine
end

