-- ==== Sys2Proof/Machine/Halts.lean ====
section
/-!
DEFINITION. Sys2Proof/Machine/Halts.lean: how stalls stop and go on again: the end of FAR and MISS (R146, R166), and the
halts of the debug module (R591, R592).
-/
namespace Sys2Proof.Machine

/-- R166, R591: a stall leaves FAR or MISS: to READY, or to the stop or halt that waits. -/
def Stall.wake (t : Stall) : Stall :=
  match t.haltReq with
  | some c => { t with state := .halted, haltedFrom := .ready, haltCause := c, haltReq := none, stopReq := false, stepping := false }
  | none => if t.stopReq then { t with state := .stopped, stopReq := false } else { t with state := .ready }

/-- R591: HALT of a stall with a cause; `held`: its GRANT.FENCE holds it, and its next instruction boundary is where the fence
completes (R226). -/
def Stall.halt (t : Stall) (cause : BitVec 3) (held : Bool := false) : Stall :=
  if held then { t with haltReq := some cause, stepping := false }
  else match t.state with
  | .running | .ready => { t with state := .halted, haltedFrom := .ready, haltCause := cause, stepping := false }
  | .waiting => { t with state := .halted, haltedFrom := .waiting, haltCause := cause, stepping := false }
  | .stopped => { t with state := .halted, haltedFrom := .stopped, haltCause := cause, stepping := false }
  | .far | .miss => { t with haltReq := some cause, stepping := false }
  | .off | .halted | .lockdown => t

/-- R590: the gate forbids the debugger an enclosed stall. -/
def State.dbgBarred (s : State) (i : Nat) : Bool := s.enclosed i && !bit s.dbg.gate 2

/-- R226: a stall's own GRANT.FENCE holds it. -/
def State.inFence (s : State) (i : Nat) : Bool := decide (i < 32) && (match (s.core (i / 8)).fence with
  | some (j, _) => j == i
  | none => false)

/-- R592: a member of the group has halted: every other member is halted with cause 4. -/
def State.groupHalt (s : State) (i : Nat) : State :=
  if (s.stall i).state = .halted ∧ bit s.dbg.group i ∧ i < 32 then
    (List.range 32).foldl (fun s j =>
      if j ≠ i ∧ bit s.dbg.group j ∧ ¬ s.dbgBarred j then s.modStall j (fun t => t.halt 4 (s.inFence j)) else s) s
  else s

/-- R591, R592: a stall is halted with a cause, and its group with it. -/
def State.haltStall (s : State) (i : Nat) (cause : BitVec 3) : State :=
  (s.modStall i (fun t => t.halt cause (s.inFence i))).groupHalt i

/-- R593: a comparator of a stall's core matches an access: `kinds` are the values of KIND that cover it. -/
def Bp.hit (b : Bp) (stall : Nat) (kinds : List Nat) (a n : Nat) : Bool :=
  let sz := min (bits b.ctrl 9 4) 47
  kinds.contains (bits b.ctrl 2 0) && bit b.ctrl (16 + stall) &&
    decide (a / 2 ^ sz ≤ b.addr.toNat / 2 ^ sz ∧ b.addr.toNat / 2 ^ sz ≤ (a + n - 1) / 2 ^ sz)

/-- R593: a breakpoint stops an access of n bytes at a cursor. -/
def State.breakAt (s : State) (i : Nat) (kinds : List Nat) (a n : Nat) : Bool :=
  decide (i < 32) && !(s.stall i).bpSkip && !s.dbgBarred i &&
    (vget s.dbg.bps (i / 8) (Vector.replicate 6 { addr := 0, ctrl := 0 })).toList.any (fun b => b.hit (i % 8) kinds a n)

/-- A mark in place of a vector: the instruction is stopped by a breakpoint and takes no exception (R593). -/
def vBreak : Nat := 64

/-- A mark in place of a vector: the instruction's access waits for an island whose clock relocks (R92); the instruction has not
begun. -/
def vHold : Nat := 65

end Sys2Proof.Machine
end

