-- ==== Sys2Proof/Machine/Crypto.lean ====
section
/-!
DEFINITION. Sys2Proof/Machine/Crypto.lean: the published algorithms that the spec names (R386, R324, R393, R475, R502):
SHA-256 and SHA-384 (FIPS 180-4), SHA3-256 (FIPS 202), AES (FIPS 197) with CTR and CBC (SP 800-38A) and GCM (SP 800-38D),
ECDSA on P-256 and P-384 (FIPS 186) and X25519 (RFC 7748). PRESUMED from those standards (log 20).
-/
namespace Sys2Proof.Machine

/-! ## SHA-2 -/

/-- FIPS 180-4: the constants of SHA-256. -/
def k256 : List W32 :=
  [0x428A2F98, 0x71374491, 0xB5C0FBCF, 0xE9B5DBA5, 0x3956C25B, 0x59F111F1, 0x923F82A4, 0xAB1C5ED5,
   0xD807AA98, 0x12835B01, 0x243185BE, 0x550C7DC3, 0x72BE5D74, 0x80DEB1FE, 0x9BDC06A7, 0xC19BF174] ++
  [0xE49B69C1, 0xEFBE4786, 0xFC19DC6, 0x240CA1CC, 0x2DE92C6F, 0x4A7484AA, 0x5CB0A9DC, 0x76F988DA,
   0x983E5152, 0xA831C66D, 0xB00327C8, 0xBF597FC7, 0xC6E00BF3, 0xD5A79147, 0x6CA6351, 0x14292967] ++
  [0x27B70A85, 0x2E1B2138, 0x4D2C6DFC, 0x53380D13, 0x650A7354, 0x766A0ABB, 0x81C2C92E, 0x92722C85,
   0xA2BFE8A1, 0xA81A664B, 0xC24B8B70, 0xC76C51A3, 0xD192E819, 0xD6990624, 0xF40E3585, 0x106AA070] ++
  [0x19A4C116, 0x1E376C08, 0x2748774C, 0x34B0BCB5, 0x391C0CB3, 0x4ED8AA4A, 0x5B9CCA4F, 0x682E6FF3,
   0x748F82EE, 0x78A5636F, 0x84C87814, 0x8CC70208, 0x90BEFFFA, 0xA4506CEB, 0xBEF9A3F7, 0xC67178F2]

/-- FIPS 180-4: the initial value of SHA-256. -/
def h256 : List W32 :=
  [0x6A09E667, 0xBB67AE85, 0x3C6EF372, 0xA54FF53A, 0x510E527F, 0x9B05688C, 0x1F83D9AB, 0x5BE0CD19]

/-- FIPS 180-4: the constants of SHA-384. -/
def k512 : List W64 :=
  [0x428A2F98D728AE22, 0x7137449123EF65CD, 0xB5C0FBCFEC4D3B2F, 0xE9B5DBA58189DBBC,
   0x3956C25BF348B538, 0x59F111F1B605D019, 0x923F82A4AF194F9B, 0xAB1C5ED5DA6D8118,
   0xD807AA98A3030242, 0x12835B0145706FBE, 0x243185BE4EE4B28C, 0x550C7DC3D5FFB4E2,
   0x72BE5D74F27B896F, 0x80DEB1FE3B1696B1, 0x9BDC06A725C71235, 0xC19BF174CF692694] ++
  [0xE49B69C19EF14AD2, 0xEFBE4786384F25E3, 0xFC19DC68B8CD5B5, 0x240CA1CC77AC9C65,
   0x2DE92C6F592B0275, 0x4A7484AA6EA6E483, 0x5CB0A9DCBD41FBD4, 0x76F988DA831153B5,
   0x983E5152EE66DFAB, 0xA831C66D2DB43210, 0xB00327C898FB213F, 0xBF597FC7BEEF0EE4,
   0xC6E00BF33DA88FC2, 0xD5A79147930AA725, 0x6CA6351E003826F, 0x142929670A0E6E70] ++
  [0x27B70A8546D22FFC, 0x2E1B21385C26C926, 0x4D2C6DFC5AC42AED, 0x53380D139D95B3DF,
   0x650A73548BAF63DE, 0x766A0ABB3C77B2A8, 0x81C2C92E47EDAEE6, 0x92722C851482353B,
   0xA2BFE8A14CF10364, 0xA81A664BBC423001, 0xC24B8B70D0F89791, 0xC76C51A30654BE30,
   0xD192E819D6EF5218, 0xD69906245565A910, 0xF40E35855771202A, 0x106AA07032BBD1B8] ++
  [0x19A4C116B8D2D0C8, 0x1E376C085141AB53, 0x2748774CDF8EEB99, 0x34B0BCB5E19B48A8,
   0x391C0CB3C5C95A63, 0x4ED8AA4AE3418ACB, 0x5B9CCA4F7763E373, 0x682E6FF3D6B2B8A3,
   0x748F82EE5DEFB2FC, 0x78A5636F43172F60, 0x84C87814A1F0AB72, 0x8CC702081A6439EC,
   0x90BEFFFA23631E28, 0xA4506CEBDE82BDE9, 0xBEF9A3F7B2C67915, 0xC67178F2E372532B] ++
  [0xCA273ECEEA26619C, 0xD186B8C721C0C207, 0xEADA7DD6CDE0EB1E, 0xF57D4F7FEE6ED178,
   0x6F067AA72176FBA, 0xA637DC5A2C898A6, 0x113F9804BEF90DAE, 0x1B710B35131C471B,
   0x28DB77F523047D84, 0x32CAAB7B40C72493, 0x3C9EBE0A15C9BEBC, 0x431D67C49C100D4C,
   0x4CC5D4BECB3E42B6, 0x597F299CFC657E2A, 0x5FCB6FAB3AD6FAEC, 0x6C44198C4A475817]

/-- FIPS 180-4: the initial value of SHA-384. -/
def h384 : List W64 :=
  [0xCBBB9D5DC1059ED8, 0x629A292A367CD507, 0x9159015A3070DD17, 0x152FECD8F70E5939,
   0x67332667FFC00B31, 0x8EB44A8768581511, 0xDB0C2E0D64F98FA7, 0x47B5481DBEFA4FA4]

/-- Bytes as a number, the first most significant. -/
def beNat (bs : List Byte) : Nat := bs.foldl (fun n b => n * 256 + b.toNat) 0

/-- The low n bytes of a number, most significant first. -/
def beBytes (n v : Nat) : List Byte := (toBytes n v).reverse

/-- A list cut into pieces of k elements. -/
def chunksOf {α : Type} (k : Nat) : Nat → List α → List (List α)
  | 0, _ => []
  | fuel + 1, xs => if xs.isEmpty then [] else xs.take k :: chunksOf k fuel (xs.drop k)

/-- FIPS 180-4: a message padded to blocks of `blk` bytes, the length in `lf` bytes. -/
def shaPad (blk lf : Nat) (m : List Byte) : List Byte :=
  let z := (2 * blk - 1 - lf - m.length % blk) % blk
  m ++ [0x80] ++ List.replicate z 0 ++ beBytes lf (8 * m.length)

/-- The rotation amounts and shifts of a SHA-2 function: Sigma 0, Sigma 1, sigma 0, sigma 1 (its last a shift). -/
structure ShaRot where
  /-- Sigma 0. -/
  s0 : Nat × Nat × Nat
  /-- Sigma 1. -/
  s1 : Nat × Nat × Nat
  /-- sigma 0. -/
  r0 : Nat × Nat × Nat
  /-- sigma 1. -/
  r1 : Nat × Nat × Nat

/-- FIPS 180-4: the message schedule, latest word first. -/
def shaSchedule {n : Nat} (r : ShaRot) : Nat → List (BitVec n) → List (BitVec n)
  | 0, ws => ws
  | k + 1, ws =>
    let g := fun i => ws.getD (i - 1) 0
    let f := fun (x : BitVec n) (t : Nat × Nat × Nat) => x.rotateRight t.1 ^^^ x.rotateRight t.2.1 ^^^ (x >>> t.2.2)
    shaSchedule r k ((f (g 2) r.r1 + g 7 + f (g 15) r.r0 + g 16) :: ws)

/-- FIPS 180-4: one round. -/
def shaRound {n : Nat} (r : ShaRot) (v : List (BitVec n)) (kw : BitVec n × BitVec n) : List (BitVec n) :=
  let f := fun (x : BitVec n) (t : Nat × Nat × Nat) => x.rotateRight t.1 ^^^ x.rotateRight t.2.1 ^^^ x.rotateRight t.2.2
  let a := v.getD 0 0
  let b := v.getD 1 0
  let c := v.getD 2 0
  let e := v.getD 4 0
  let t1 := v.getD 7 0 + f e r.s1 + ((e &&& v.getD 5 0) ^^^ (~~~ e &&& v.getD 6 0)) + kw.1 + kw.2
  let t2 := f a r.s0 + ((a &&& b) ^^^ (a &&& c) ^^^ (b &&& c))
  [t1 + t2, a, b, c, v.getD 3 0 + t1, e, v.getD 5 0, v.getD 6 0]

/-- FIPS 180-4: one block. -/
def shaBlock {n : Nat} (r : ShaRot) (ks : List (BitVec n)) (h : List (BitVec n)) (blk : List Byte) : List (BitVec n) :=
  let w0 := (chunksOf (n / 8) 16 blk).map (fun c => BitVec.ofNat n (beNat c))
  let ws := (shaSchedule r (ks.length - 16) w0.reverse).reverse
  let v := (ks.zip ws).foldl (shaRound r) h
  List.zipWith (fun x y => x + y) h v

/-- SHA-256. -/
def sha256 (m : List Byte) : List Byte :=
  let r : ShaRot := ⟨(2, 13, 22), (6, 11, 25), (7, 18, 3), (17, 19, 10)⟩
  let p := shaPad 64 8 m
  ((chunksOf 64 (p.length / 64) p).foldl (shaBlock r k256) h256).flatMap (fun w => beBytes 4 w.toNat)

/-- SHA-384. -/
def sha384 (m : List Byte) : List Byte :=
  let r : ShaRot := ⟨(28, 34, 39), (14, 18, 41), (1, 8, 7), (19, 61, 6)⟩
  let p := shaPad 128 16 m
  (((chunksOf 128 (p.length / 128) p).foldl (shaBlock r k512) h384).flatMap (fun w => beBytes 8 w.toNat)).take 48

/-! ## SHA-3 -/

/-- FIPS 202: the round constants. -/
def keccakRc : List W64 :=
  [0x1, 0x8082, 0x800000000000808A, 0x8000000080008000,
   0x808B, 0x80000001, 0x8000000080008081, 0x8000000000008009,
   0x8A, 0x88, 0x80008009, 0x8000000A] ++
  [0x8000808B, 0x800000000000008B, 0x8000000000008089, 0x8000000000008003,
   0x8000000000008002, 0x8000000000000080, 0x800A, 0x800000008000000A,
   0x8000000080008081, 0x8000000000008080, 0x80000001, 0x8000000080008008]

/-- FIPS 202: the lane at (x, y) of a state of 25 lanes, x fastest. -/
def lane (a : List W64) (x y : Nat) : W64 := a.getD (x % 5 + 5 * (y % 5)) 0

/-- A state from a function of x and y. -/
def lanes (f : Nat → Nat → W64) : List W64 := (List.range 25).map (fun i => f (i % 5) (i / 5))

/-- FIPS 202: the rotation offsets of rho, by lane (x fastest). -/
def rhoOffsets : List Nat :=
  [0, 1, 62, 28, 27, 36, 44, 6, 55, 20, 3, 10, 43, 25, 39, 41, 45, 15, 21, 8, 18, 2, 61, 56, 14]

/-- FIPS 202: one round. -/
def keccakRound (a : List W64) (rc : W64) : List W64 :=
  let c := (List.range 5).map (fun x => lane a x 0 ^^^ lane a x 1 ^^^ lane a x 2 ^^^ lane a x 3 ^^^ lane a x 4)
  let d := fun x => c.getD ((x + 4) % 5) 0 ^^^ (c.getD ((x + 1) % 5) 0).rotateLeft 1
  let t := lanes (fun x y => (lane a x y ^^^ d x).rotateLeft (rhoOffsets.getD (x + 5 * y) 0))
  let p := lanes (fun x y => lane t (x + 3 * y) x)
  let q := lanes (fun x y => lane p x y ^^^ (~~~ lane p (x + 1) y &&& lane p (x + 2) y))
  match q with
  | [] => []
  | w :: ws => (w ^^^ rc) :: ws

/-- FIPS 202: absorb one block of 136 bytes. -/
def keccakAbsorb (a : List W64) (blk : List Byte) : List W64 :=
  let ws := (chunksOf 8 17 blk).map (fun c => BitVec.ofNat 64 (ofBytes c))
  keccakRc.foldl keccakRound ((List.range 25).map (fun i => a.getD i 0 ^^^ ws.getD i 0))

/-- SHA3-256. -/
def sha3x256 (m : List Byte) : List Byte :=
  let z := 135 - m.length % 136
  let p := if z = 0 then m ++ [0x86] else m ++ [0x06] ++ List.replicate (z - 1) 0 ++ [0x80]
  (((chunksOf 136 (p.length / 136) p).foldl keccakAbsorb (List.replicate 25 0)).flatMap (fun w => toBytes 8 w.toNat)).take 32

/-! ## AES -/

/-- FIPS 197: multiplication by x. -/
def xtime (b : Byte) : Byte := if b.getLsbD 7 then (b <<< 1) ^^^ 0x1B else b <<< 1

/-- FIPS 197: multiplication in GF(2^8). -/
def gmul (a b : Byte) : Byte :=
  ((List.range 8).foldl (fun (acc : Byte × Byte) i => (if b.getLsbD i then acc.1 ^^^ acc.2 else acc.1, xtime acc.2)) (0, a)).1

/-- The inverse in GF(2^8), the 254th power. -/
def ginv (a : Byte) : Byte :=
  let a2 := gmul a a
  let a4 := gmul a2 a2
  let a8 := gmul a4 a4
  let a16 := gmul a8 a8
  let a32 := gmul a16 a16
  let a64 := gmul a32 a32
  let a128 := gmul a64 a64
  gmul (gmul (gmul a2 a4) (gmul a8 a16)) (gmul (gmul a32 a64) a128)

/-- FIPS 197: SubBytes of one byte. -/
def sbox (a : Byte) : Byte :=
  let b := ginv a
  b ^^^ b.rotateLeft 1 ^^^ b.rotateLeft 2 ^^^ b.rotateLeft 3 ^^^ b.rotateLeft 4 ^^^ 0x63

/-- FIPS 197: the inverse of SubBytes. -/
def invSbox (a : Byte) : Byte := ginv (a.rotateLeft 1 ^^^ a.rotateLeft 3 ^^^ a.rotateLeft 6 ^^^ 0x05)

/-- Exclusive or of byte lists. -/
def xorBytes (a b : List Byte) : List Byte := List.zipWith (fun x y => x ^^^ y) a b

/-- FIPS 197: the key schedule: words of four bytes, latest first, until `total` words. -/
def aesExpand (nk : Nat) : Nat → Nat → Byte → List (List Byte) → List (List Byte)
  | 0, _, _, ws => ws
  | k + 1, i, rc, ws =>
    let t := ws.getD 0 []
    let t' := if i % nk = 0 then
        match (t.drop 1 ++ t.take 1).map sbox with
        | b :: bs => (b ^^^ rc) :: bs
        | [] => []
      else if nk > 6 ∧ i % nk = 4 then t.map sbox else t
    aesExpand nk k (i + 1) (if i % nk = 0 then xtime rc else rc) (xorBytes (ws.getD (nk - 1) []) t' :: ws)

/-- FIPS 197: the round keys of a key of 16 or 32 bytes, 16 bytes each. -/
def aesKeys (key : List Byte) : List (List Byte) :=
  let nk := key.length / 4
  let ws := (aesExpand nk (4 * (nk + 7) - nk) nk 1 (chunksOf 4 nk key).reverse).reverse
  chunksOf 16 (nk + 7) ws.flatten

/-- FIPS 197: ShiftRows by a permutation of byte places. -/
def shiftRows (inv : Bool) (s : List Byte) : List Byte :=
  (List.range 16).map (fun i => s.getD (if inv then (i % 4 + 4 * ((i / 4 + 4 - i % 4) % 4)) else (i % 4 + 4 * ((i / 4 + i % 4) % 4))) 0)

/-- FIPS 197: MixColumns with the row of coefficients given. -/
def mixColumns (m : List Byte) (s : List Byte) : List Byte :=
  (List.range 16).map (fun i =>
    (List.range 4).foldl (fun acc j => acc ^^^ gmul (m.getD ((j + 4 - i % 4) % 4) 0) (s.getD (i / 4 * 4 + j) 0)) 0)

/-- FIPS 197: encrypt one block of 16 bytes. -/
def aesEnc (ks : List (List Byte)) (b : List Byte) : List Byte :=
  match ks with
  | [] => b
  | k0 :: rest =>
    let mid := rest.dropLast
    let x := mid.foldl (fun s k => xorBytes (mixColumns [2, 3, 1, 1] (shiftRows false (s.map sbox))) k) (xorBytes b k0)
    xorBytes (shiftRows false (x.map sbox)) (rest.getLastD [])

/-- FIPS 197: decrypt one block of 16 bytes. -/
def aesDec (ks : List (List Byte)) (b : List Byte) : List Byte :=
  match ks.reverse with
  | [] => b
  | kl :: rest =>
    let mid := rest.dropLast
    let x := mid.foldl (fun s k => mixColumns [14, 11, 13, 9] (xorBytes ((shiftRows true s).map invSbox) k)) (xorBytes b kl)
    xorBytes ((shiftRows true x).map invSbox) (rest.getLastD [])

/-- SP 800-38A: the key stream of CTR from a counter block on, incremented in its low `w` bytes. -/
def ctrStream (ks : List (List Byte)) (w : Nat) (ctr : List Byte) (blocks : Nat) : List Byte :=
  let hi := ctr.take (16 - w)
  let lo := beNat (ctr.drop (16 - w))
  (List.range blocks).flatMap (fun i => aesEnc ks (hi ++ beBytes w ((lo + i) % 256 ^ w)))

/-- SP 800-38A: CTR over a text, the counter block incremented in its low `w` bytes. -/
def aesCtr (ks : List (List Byte)) (w : Nat) (ctr m : List Byte) : List Byte :=
  xorBytes m (ctrStream ks w ctr ((m.length + 15) / 16))

/-- SP 800-38A: CBC encryption of whole blocks. -/
def cbcEnc (ks : List (List Byte)) (iv m : List Byte) : List Byte :=
  ((chunksOf 16 (m.length / 16) m).foldl (fun (acc : List Byte × List Byte) b =>
    let c := aesEnc ks (xorBytes b acc.1)
    (c, acc.2 ++ c)) (iv, [])).2

/-- SP 800-38A: CBC decryption of whole blocks. -/
def cbcDec (ks : List (List Byte)) (iv m : List Byte) : List Byte :=
  ((chunksOf 16 (m.length / 16) m).foldl (fun (acc : List Byte × List Byte) b =>
    (b, acc.2 ++ xorBytes (aesDec ks b) acc.1)) (iv, [])).2

/-- SP 800-38D: multiplication in GF(2^128), bit 0 of the field the most significant bit of the block. -/
def ghashMul (x y : BitVec 128) : BitVec 128 :=
  ((List.range 128).foldl (fun (acc : BitVec 128 × BitVec 128) i =>
    (if x.getLsbD (127 - i) then acc.1 ^^^ acc.2 else acc.1,
     if acc.2.getLsbD 0 then (acc.2 >>> 1) ^^^ 0xE1000000000000000000000000000000 else acc.2 >>> 1)) (0, y)).1

/-- SP 800-38D: a text padded with zeros to whole blocks. -/
def pad16 (m : List Byte) : List Byte := m ++ List.replicate ((16 - m.length % 16) % 16) 0

/-- SP 800-38D: GHASH. -/
def ghash (h : BitVec 128) (m : List Byte) : BitVec 128 :=
  (chunksOf 16 (m.length / 16) m).foldl (fun acc b => ghashMul (acc ^^^ BitVec.ofNat 128 (beNat b)) h) 0

/-- SP 800-38D: the tag of a cipher text with a 12-byte IV. -/
def gcmTag (ks : List (List Byte)) (iv aad ct : List Byte) : List Byte :=
  let h := BitVec.ofNat 128 (beNat (aesEnc ks (List.replicate 16 0)))
  let g := ghash h (pad16 aad ++ pad16 ct ++ beBytes 8 (8 * aad.length) ++ beBytes 8 (8 * ct.length))
  xorBytes (beBytes 16 g.toNat) (aesEnc ks (iv ++ [0, 0, 0, 1]))

/-- SP 800-38D: the text under the key stream that follows the tag's block. -/
def gcmCtr (ks : List (List Byte)) (iv m : List Byte) : List Byte := aesCtr ks 4 (iv ++ [0, 0, 0, 2]) m

/-! ## Elliptic curves -/

/-- A power modulo p, the exponent given by its bits, most significant first. -/
def powMod (p b : Nat) (e : List Bool) : Nat := e.foldl (fun r x => if x then r * r % p * b % p else r * r % p) 1

/-- The low n bits of a number, most significant first. -/
def bitsOf (n v : Nat) : List Bool := ((List.range n).map (fun i => v.testBit i)).reverse

/-- The inverse modulo a prime below 2^384. -/
def invMod (p b : Nat) : Nat := powMod p (b % p) (bitsOf 384 (p - 2))

/-- A short Weierstrass curve with a = −3. -/
structure Curve where
  /-- The prime. -/
  p : Nat
  /-- b. -/
  b : Nat
  /-- The order. -/
  n : Nat
  /-- Base point. -/
  g : Nat × Nat
  /-- Bytes of a coordinate. -/
  len : Nat

/-- FIPS 186: P-256. -/
def p256 : Curve :=
  { p := 0xFFFFFFFF00000001000000000000000000000000FFFFFFFFFFFFFFFFFFFFFFFF
    b := 0x5AC635D8AA3A93E7B3EBBD55769886BC651D06B0CC53B0F63BCE3C3E27D2604B
    n := 0xFFFFFFFF00000000FFFFFFFFFFFFFFFFBCE6FAADA7179E84F3B9CAC2FC632551
    g := (0x6B17D1F2E12C4247F8BCE6E563A440F277037D812DEB33A0F4A13945D898C296,
          0x4FE342E2FE1A7F9B8EE7EB4A7C0F9E162BCE33576B315ECECBB6406837BF51F5)
    len := 32 }

/-- FIPS 186: P-384. -/
def p384 : Curve :=
  { p := 0xFFFFFFFFFFFFFFFFFFFFFFFFFFFFFFFFFFFFFFFFFFFFFFFFFFFFFFFFFFFFFFFEFFFFFFFF0000000000000000FFFFFFFF
    b := 0xB3312FA7E23EE7E4988E056BE3F82D19181D9C6EFE8141120314088F5013875AC656398D8A2ED19D2A85C8EDD3EC2AEF
    n := 0xFFFFFFFFFFFFFFFFFFFFFFFFFFFFFFFFFFFFFFFFFFFFFFFFC7634D81F4372DDF581A0DB248B0A77AECEC196ACCC52973
    g := (0xAA87CA22BE8B05378EB1C71EF320AD746E1D3B628BA79B9859F741E082542A385502F25DBF55296C3A545E3872760AB7,
          0x3617DE4A96262C6F5D9E98BF9292DC29F8F41DBD289A147CE9DA3113B5F0B8C00A60B1CE1D7E819D7A431D7C90EA0E5F)
    len := 48 }

/-- The sum of two points; none is the point at infinity. -/
def Curve.add (c : Curve) (a b : Option (Nat × Nat)) : Option (Nat × Nat) :=
  match a, b with
  | none, q => q
  | p, none => p
  | some (x1, y1), some (x2, y2) =>
    if x1 = x2 ∧ (y1 + y2) % c.p = 0 then none
    else
      let l := if x1 = x2 then (3 * x1 * x1 + (c.p - 3)) % c.p * invMod c.p (2 * y1) % c.p
               else (y2 + c.p - y1) % c.p * invMod c.p (x2 + c.p - x1) % c.p
      let x3 := (l * l + 2 * c.p - x1 - x2) % c.p
      some (x3, (l * (x1 + c.p - x3) + c.p - y1) % c.p)

/-- A multiple of a point. -/
def Curve.mul (c : Curve) (k : Nat) (a : Option (Nat × Nat)) : Option (Nat × Nat) :=
  (bitsOf (8 * c.len) k).foldl (fun r x =>
    let d := c.add r r
    if x then c.add d a else d) none

/-- A point lies on the curve. -/
def Curve.has (c : Curve) (q : Nat × Nat) : Bool :=
  decide (q.1 < c.p ∧ q.2 < c.p) && decide (q.2 * q.2 % c.p = (q.1 * q.1 % c.p * q.1 + (c.p - 3) * q.1 + c.b) % c.p)

/-- FIPS 186: the integer of a digest: its leftmost bits, as many as the order has. -/
def Curve.digest (c : Curve) (d : List Byte) : Nat := beNat (d.take c.len)

/-- FIPS 186: whether (r, s) is a signature of a digest under a public key. -/
def Curve.verify (c : Curve) (q : Nat × Nat) (d : List Byte) (r s : Nat) : Bool :=
  if 0 < r ∧ r < c.n ∧ 0 < s ∧ s < c.n ∧ c.has q then
    let w := invMod c.n s
    match c.add (c.mul (c.digest d * w % c.n) (some c.g)) (c.mul (r * w % c.n) (some q)) with
    | none => false
    | some (x, _) => x % c.n == r
  else false

/-- FIPS 186: the signature of a digest with a private scalar and a nonce. -/
def Curve.sign (c : Curve) (x : Nat) (d : List Byte) (k : Nat) : Nat × Nat :=
  match c.mul k (some c.g) with
  | none => (0, 0)
  | some (px, _) =>
    let r := px % c.n
    (r, invMod c.n k * ((c.digest d + r * x) % c.n) % c.n)

/-! ## X25519 -/

/-- RFC 7748: the prime. -/
def p25519 : Nat := 2 ^ 255 - 19

/-- RFC 7748: one step of the ladder on (x2, z2, x3, z3). -/
def ladderStep (u : Nat) (v : Nat × Nat × Nat × Nat) : Nat × Nat × Nat × Nat :=
  let p := p25519
  let (x2, z2, x3, z3) := v
  let a := x2 + z2
  let b := x2 + p - z2
  let aa := a * a % p
  let bb := b * b % p
  let e := (aa + p - bb) % p
  let da := (x3 + p - z3) % p * a % p
  let cb := (x3 + z3) % p * b % p
  let dm := (da + p - cb) % p
  (aa * bb % p, e * (aa + 121665 * e) % p, (da + cb) * (da + cb) % p, u * (dm * dm % p) % p)

/-- RFC 7748: X25519 of a scalar and a u coordinate, 32 bytes each. -/
def x25519 (scalar u : List Byte) : List Byte :=
  let k := ofBytes scalar % 2 ^ 255
  let k := k - k % 8
  let k := if k.testBit 254 then k else k + 2 ^ 254
  let x1 := ofBytes u % 2 ^ 255 % p25519
  let (x2, z2, _, _) := (bitsOf 255 k).foldl (fun (v : Nat × Nat × Nat × Nat) b =>
    let (a, b2, c, d) := v
    if b then
      let (x3, z3, x2, z2) := ladderStep x1 (c, d, a, b2)
      (x2, z2, x3, z3)
    else ladderStep x1 v) (1, 0, x1, 1)
  toBytes 32 (x2 * invMod p25519 z2 % p25519)

end Sys2Proof.Machine
end

