-- ==== Sys2Proof/Machine/Caches.lean ====
section
/-!
DEFINITION. Sys2Proof/Machine/Caches.lean: which lines the caches of the Nave die hold (R299 to R304, R306): how they are
filled, written, invalidated and replaced, and where the carve-outs of a channel lie (R316, R318).
-/
namespace Sys2Proof.Machine

/-- The organisation of a cache (R299). -/
structure CacheForm where
  /-- The cache's number, for the sets that lines fall into. -/
  kind : Nat
  /-- Sets. -/
  sets : Nat
  /-- Ways. -/
  ways : Nat

/-- R299: an L1 instruction cache: 32 KiB, 4-way. -/
def formL1i : CacheForm := ⟨0, 128, 4⟩
/-- R299: an L1 data cache: 32 KiB, 8-way. -/
def formL1d : CacheForm := ⟨1, 64, 8⟩
/-- R299: the L2: 4 MiB, 16-way. -/
def formL2 : CacheForm := ⟨2, 4096, 16⟩
/-- R299, R129: the tag cache: 64 KiB, 16-way. -/
def formTag : CacheForm := ⟨3, 64, 16⟩
/-- R299: the check cache: 32 KiB, 8-way. -/
def formChk : CacheForm := ⟨4, 64, 8⟩

/-- The set that a line falls into, on which the spec is silent (log 35). -/
def CacheForm.set (f : CacheForm) (line : Nat) : Nat := Config.cacheSet f.kind line % f.sets

/-- A cache holds a line. -/
def inCache (l : List CacheLine) (line : Nat) : Bool := l.any (fun x => x.line == line)

/-- A line enters a cache; where its set is full it takes the place of the line that `pick` names (replacement is not specified,
R299). -/
def CacheForm.put (f : CacheForm) (pick : Nat) (l : List CacheLine) (x : CacheLine) : List CacheLine :=
  if inCache l x.line then l.map (fun y => if y.line = x.line then { y with dirty := y.dirty || x.dirty } else y)
  else
    let same := l.filter (fun y => f.set y.line == f.set x.line)
    (if same.length < f.ways then l else l.filter (fun y => some y ≠ same[pick % f.ways]?)) ++ [x]

/-- A line leaves a cache. -/
def cacheDrop (l : List CacheLine) (line : Nat) : List CacheLine := l.filter (fun x => x.line ≠ line)

/-- R299: a line enters the L2: the L1 data caches hold no line that the L2 does not, and a line that it writes back leaves its
tags and its check slot in their caches. -/
def Caches.fill (c : Caches) (pick line : Nat) (dirty : Bool) : Caches :=
  let l2 := formL2.put pick c.l2 ⟨line, dirty⟩
  let back := (c.l2.filter (fun x => x.dirty && !inCache l2 x.line)).map CacheLine.line
  let serve := fun (f : CacheForm) (n : Nat) (l : List CacheLine) =>
    back.foldl (fun l k => f.put pick l ⟨k / n, true⟩) (f.put pick l ⟨line / n, false⟩)
  { c with l2 := l2, l1d := c.l1d.map (fun l => l.filter (fun x => inCache l2 x.line)),
           tagc := serve formTag 128 c.tagc, chkc := serve formChk 32 c.chkc }

/-- R304, R306: the lines of a granule that a prefetch brings into the L2: those whose bit of the mask is 1. -/
def Caches.prefetch (c : Caches) (pick granule mask : Nat) : Caches :=
  (List.range 64).foldl (fun c k =>
    if mask.testBit k && !inCache c.l2 (64 * granule + k) then c.fill pick (64 * granule + k) false else c) c

/-- R299, R304: a line of DRAM is read: where `alloc` says so it enters the L2 on a miss, with lines of its granule that a prefetch
takes (R306), and the L1 data cache of the core whose load it is. -/
def Caches.load (c : Caches) (core : Option Nat) (line pick mask : Nat) (alloc : Bool) : Caches :=
  if !alloc || core.any (fun k => inCache (vget c.l1d k []) line) then c
  else
    let c := if inCache c.l2 line then c else (c.prefetch pick (line / 64) mask).fill pick line false
    match core with
    | some k => { c with l1d := vmod c.l1d k (fun l => formL1d.put pick l ⟨line, false⟩) }
    | none => c

/-- R299, R300: a core fetches from a line: it enters the L1 instruction cache, and the L2 where it is a line of DRAM. -/
def Caches.fetch (c : Caches) (core line pick mask : Nat) (dram alloc : Bool) : Caches :=
  if inCache (vget c.l1i core []) line || !alloc then c
  else
    let c := if dram && !inCache c.l2 line then (c.prefetch pick (line / 64) mask).fill pick line false else c
    { c with l1i := vmod c.l1i core (fun l => formL1i.put pick l ⟨line, false⟩) }

/-- R301, R302: a line of DRAM is written: the L1 data caches of all cores but the writer's lose it; the L2 takes the write where it
holds the line, and allocates on a miss where `alloc` says so. -/
def Caches.store (c : Caches) (core : Option Nat) (line pick mask : Nat) (alloc : Bool) : Caches :=
  let c := { c with l1d := c.l1d.zipIdx.map (fun p => if core = some p.2 then p.1 else cacheDrop p.1 line) }
  if inCache c.l2 line then c.fill pick line true
  else if alloc then (c.prefetch pick (line / 64) mask).fill pick line true
  else c

/-- R225: FENCE.INS: the L1 instruction cache of a core is invalidated. -/
def Caches.dropIns (c : Caches) (core : Nat) : Caches := { c with l1i := vset c.l1i core [] }

/-- A core is reset: its L1 caches are empty. -/
def Caches.dropCore (c : Caches) (core : Nat) : Caches := { c.dropIns core with l1d := vset c.l1d core [] }

/-- The lines that pass a test stay: of lines, of tag lines and of lines of check slots. -/
def Caches.keep (c : Caches) (line tag chk : CacheLine → Bool) : Caches :=
  { l1i := c.l1i.map (fun l => l.filter line), l1d := c.l1d.map (fun l => l.filter line), l2 := c.l2.filter line,
    tagc := c.tagc.filter tag, chkc := c.chkc.filter chk }

/-- How an access uses the caches. -/
structure Use where
  /-- The core that makes it; none: another initiator (R302). -/
  core : Option Nat
  /-- It is an instruction fetch. -/
  fetch : Bool
  /-- Its attribute is normal (R304). -/
  normal : Bool
deriving DecidableEq, Repr

/-- R302: an access of an initiator other than a core. -/
def Use.dma : Use := ⟨none, false, false⟩

/-- R219, R265, R304: an access that a core makes at the L2: an atomic with its attribute, or a walk. -/
def Use.atL2 (attr : BitVec 3) : Use := ⟨none, false, attr == 0⟩

/-- R304: an access of a core with an attribute. -/
def Use.data (core : Nat) (attr : BitVec 3) : Use := ⟨some core, false, attr == 0⟩

/-- The first-level cache that an access looks up first, with its SOURCE (R307). -/
def State.firstLevel (s : State) (u : Use) : Option (List CacheLine × Nat) :=
  u.core.map (fun c => if u.fetch then (vget s.caches.l1i c [], 0) else (vget s.caches.l1d c [], 1))

/-- A line is served by the first-level cache of an access. -/
def State.hitsL1 (s : State) (u : Use) (line : Nat) : Bool :=
  match s.firstLevel u with
  | some l => inCache l.1 line
  | none => false

/-- The lines that n bytes touch. -/
def linesOf (pa n : Nat) : List Nat := (List.range ((pa + n + 63) / 64 - pa / 64)).map (fun k => pa / 64 + k)

/-- R168: a load of n bytes misses the L2 to DRAM. -/
def State.missesL2 (s : State) (pa n : Nat) : Bool :=
  decide (aDram ≤ pa) && (linesOf pa n).any (fun k => !inCache s.caches.l2 k)

/-! ## The carve-outs (R316, R318) -/

/-- R318: the device offset of the check slot of the line at device offset x, of a channel of C bytes. -/
def checkSlotAt (c x : Nat) : Nat := c / 128 * 123 + 2 * (x / 64)

/-- R318: the device offset of the tag line that holds the tags of the line at device offset x. -/
def tagLineAt (c x : Nat) : Nat := c / 128 * 127 + 64 * (x / 8192)

/-- R318: the check slot of a DRAM line (address / 64). A flip of one bit of STATE is a corrected error of SOURCE 5 in `latent`: the
line counts as written. -/
def State.checkSlot (s : State) (line : Nat) : BitVec 16 :=
  if ¬ s.mem.written.contains line then 0
  else
    let p := s.mem.poisonLines.contains line
    BitVec.ofNat 16 (0xC000 + p.toNat * 0x2000) ||| (Config.secded (s.readMem (64 * line) 64) p).zeroExtend 16

end Sys2Proof.Machine
end

