-- ==== Sys2Proof/Machine/Crc.lean ====
section
/-!
DEFINITION. Sys2Proof/Machine/Crc.lean: the CRC-16 of R333 and the CRC-32 of IEEE 802.3 (R460).
-/
namespace Sys2Proof.Machine

/-- One bit of a CRC that shifts left. -/
def crc16Bit (c : BitVec 16) : BitVec 16 := if c.getLsbD 15 then (c <<< 1) ^^^ 0x1021 else c <<< 1
/-- One byte, most significant bit first. -/
def crc16Byte (c : BitVec 16) (b : Byte) : BitVec 16 :=
  Nat.repeat crc16Bit 8 (c ^^^ ((b.zeroExtend 16) <<< 8))
/-- R333: polynomial 0x1021, initial value 0xFFFF, not reflected. -/
def crc16 (bs : List Byte) : BitVec 16 := bs.foldl crc16Byte 0xFFFF

/-- One bit of the reflected CRC-32. -/
def crc32Bit (c : BitVec 32) : BitVec 32 := if c.getLsbD 0 then (c >>> 1) ^^^ 0xEDB88320 else c >>> 1
/-- One byte, least significant bit first. -/
def crc32Byte (c : BitVec 32) (b : Byte) : BitVec 32 := Nat.repeat crc32Bit 8 (c ^^^ b.zeroExtend 32)
/-- R460: the CRC-32 of the IEEE 802.3 FCS. -/
def crc32 (bs : List Byte) : BitVec 32 := ~~~ (bs.foldl crc32Byte 0xFFFFFFFF)

end Sys2Proof.Machine
end

