-- ==== Sys2Proof/Machine/FlashOps.lean ====
section
/-!
DEFINITION. Sys2Proof/Machine/FlashOps.lean: the words and sectors of an aisle (R485 to R487, R492, R493) and the
operations over them that the flash commands, the Sacristy's records and the images share. Words are numbered 0 to
262,143 in an aisle, 128 to a sector.
-/
namespace Sys2Proof.Machine

/-- An aisle by number. -/
def State.aisle (s : State) (a : Nat) : FlashAisle := vget s.sac.flash a FlashAisle.init
/-- Change an aisle. -/
def State.modAisle (s : State) (a : Nat) (f : FlashAisle → FlashAisle) : State :=
  { s with sac := { s.sac with flash := vmod s.sac.flash a f } }

/-- What a word holds; none: erased (R486). -/
def FlashAisle.word (f : FlashAisle) (w : Nat) : Option FlashWord := AMap.get? f.words w
/-- The hidden header of a sector (R493). -/
def FlashAisle.hdr (f : FlashAisle) (sec : Nat) : SectHdr := (AMap.get? f.hdrs sec).getD ⟨0, false⟩

/-- R490: the sectors that an erase command covers: first and count. -/
def FlCmd.sectors (c : FlCmd) : Nat × Nat :=
  match c.op with
  | .eraseSector => (c.word / 128, 1)
  | .eraseBlock => (c.word / 2048 * 16, 16)
  | _ => (0, 0)

/-- R492, R493: a read of this sector returns 0x00 (an erase in progress, suspended, or begun and not complete). -/
def FlashAisle.sectorDark (f : FlashAisle) (sec : Nat) : Bool :=
  (f.hdr sec).incomplete ||
  match f.cmd with
  | some c => decide ((FlCmd.sectors c).1 ≤ sec ∧ sec < (FlCmd.sectors c).1 + (FlCmd.sectors c).2)
  | none => false

/-- R486: the 32 bytes that a read of a word returns; none: uncorrectable. -/
def FlashAisle.readWord (f : FlashAisle) (w : Nat) : Option (BitVec 256) :=
  if f.sectorDark (w / 128) then some 0
  else match f.word w with
    | none => some (BitVec.allOnes 256)
    | some (.programmed d) => some d
    | some .zeroised => some 0
    | some .uncorrectable => none

/-- R486: n bytes at an aisle offset; none if a word of them is uncorrectable. -/
def FlashAisle.read (f : FlashAisle) (off n : Nat) : Option (List Byte) :=
  (List.range n).mapM (fun i =>
    (f.readWord ((off + i) / 32)).map (fun d => d.extractLsb' (8 * ((off + i) % 32)) 8))

/-- A sector as it reads, 4,096 bytes; an uncorrectable word as 0xFF. -/
def FlashAisle.sectorBytes (f : FlashAisle) (sec : Nat) : List Byte :=
  (List.range 128).flatMap (fun i => toBytes 32 ((f.readWord (128 * sec + i)).getD (BitVec.allOnes 256)).toNat)

/-- The words that n bytes at an aisle offset cover. -/
def flashWords (off n : Nat) : List Nat := (List.range ((off + n + 31) / 32 - off / 32)).map (fun i => off / 32 + i)

/-- R487: program an erased word; a word that is not erased stays as it is. -/
def FlashAisle.prog (f : FlashAisle) (w : Nat) (d : BitVec 256) : FlashAisle :=
  match f.word w with
  | none => { f with words := AMap.set f.words w (.programmed d) }
  | some _ => f

/-- R487: zeroise a word. -/
def FlashAisle.zero (f : FlashAisle) (w : Nat) : FlashAisle := { f with words := AMap.set f.words w .zeroised }

/-- R493: the erase of a sector completes: every word erased, the count one higher. -/
def FlashAisle.eraseSector (f : FlashAisle) (sec : Nat) : FlashAisle :=
  { f with words := f.words.filter (fun p => p.1 / 128 ≠ sec), weak := f.weak.filter (fun w => w / 128 ≠ sec),
           hdrs := AMap.set f.hdrs sec ⟨(f.hdr sec).count + 1, false⟩ }

/-- R501: the erase count allows another erase. -/
def FlashAisle.mayErase (f : FlashAisle) (sec : Nat) : Bool := decide ((f.hdr sec).count < 100000)

/-- Erase n sectors from one on. -/
def FlashAisle.eraseSectors (f : FlashAisle) (sec n : Nat) : FlashAisle :=
  (List.range n).foldl (fun f i => f.eraseSector (sec + i)) f

/-- Program words from one on. -/
def FlashAisle.progs (f : FlashAisle) (w : Nat) : List (BitVec 256) → FlashAisle
  | [] => f
  | d :: ds => (f.prog w d).progs (w + 1) ds

/-- Bytes as flash words of 32 bytes, the last filled up with 0xFF. -/
def wordsOf : Nat → List Byte → List (BitVec 256)
  | 0, _ => []
  | _ + 1, [] => []
  | n + 1, bs =>
    let c := bs.take 32
    BitVec.ofNat 256 (ofBytes (c ++ List.replicate (32 - c.length) 0xFF)) :: wordsOf n (bs.drop 32)

/-- The 32 bytes of a flash word. -/
def wordBytes (d : BitVec 256) : List Byte := toBytes 32 d.toNat

/-- The first erased word of a region, if any. -/
def FlashAisle.firstErased (f : FlashAisle) (w n : Nat) : Option Nat :=
  ((List.range n).map (fun i => w + i)).find? (fun i => (f.word i).isNone)

/-- R489: append a word to a region of two sectors: when the current sector is full the word goes into the other one,
and the full one is erased. -/
def FlashAisle.appendTwo (f : FlashAisle) (sec : Nat) (d : BitVec 256) : FlashAisle :=
  match f.firstErased (128 * sec) 128, f.firstErased (128 * (sec + 1)) 128 with
  | some w, some v => if v = 128 * (sec + 1) then f.prog w d else f.prog v d
  | some w, none => (f.prog w d).eraseSector (sec + 1)
  | none, some v => (f.prog v d).eraseSector sec
  | none, none => ((f.eraseSector (sec + 1)).prog (128 * (sec + 1)) d).eraseSector sec

/-- R489: the counter word for three counts, of which each update has one more than the last: their sum numbers the words. -/
def counterWordOf (epochs powerons starts : Nat) : BitVec 256 :=
  Config.counterWord epochs powerons starts (epochs + powerons + starts)

/-- R489: write the counter word into both aisles. -/
def State.writeCounters (s : State) : State :=
  let d := counterWordOf s.sac.epochs s.sac.powerons.toNat s.sac.naveStarts
  (s.modAisle 0 (fun f => f.appendTwo 4 d)).modAisle 1 (fun f => f.appendTwo 4 d)

/-- R489: the programmed words of the counter sectors of both aisles. -/
def State.counterWords (s : State) : List (BitVec 256) :=
  s.sac.flash.toList.flatMap (fun f => f.words.filterMap (fun p =>
    if p.1 / 128 = 4 ∨ p.1 / 128 = 5 then (match p.2 with | .programmed d => some d | _ => none) else none))

/-- R489: at power-on reset the counters are those of the newest valid word, which the last update wrote; where that word is no
longer held, an older one's, which is free here (log 10); without any word they start from 0. Answers whether a word was found. -/
def State.loadCounters (s : State) : Bool × State :=
  let was := s.sac.powerons.toNat - 1
  let ws := s.counterWords
  if ws.contains (counterWordOf s.sac.epochs was s.sac.naveStarts) then (true, s)
  else if ws = [] then (false, { s with sac := { s.sac with epochs := 0, powerons := 1, naveStarts := 0 } })
  else
    let (a, s) := s.drawWord
    let (b, s) := s.drawWord
    let (c, s) := s.drawWord
    (true, { s with sac := { s.sac with
      epochs := a.toNat % (s.sac.epochs + 1)
      powerons := BitVec.ofNat 16 (b.toNat % (was + 1) + 1)
      naveStarts := c.toNat % (s.sac.naveStarts + 1) } })

/-! ## Rewriting a sector (R497) -/

/-- R497 step 1: words of a sector stand in the other aisle's scrub spare, and its descriptor names them. -/
def FlashAisle.spare (g : FlashAisle) (a k : Nat) (kept : List (Nat × FlashWord)) : FlashAisle :=
  let g := if g.words.any (fun p => p.1 / 128 = 6) then g.eraseSector 6 else g
  let g := kept.foldl (fun g p => { g with words := AMap.set g.words (768 + p.1 % 128) p.2 }) g
  let g := if (g.firstErased (128 * 7) 128).isNone then g.eraseSector 7 else g
  match g.firstErased (128 * 7) 128 with
  | some w => g.prog w (Config.scrubWord a k (crc32 (g.sectorBytes 6)))
  | none => g

/-- R497 steps 2 and 3: a sector is erased and programmed from the copy in the other aisle's spare. -/
def State.spareBack (s : State) (a k : Nat) : State :=
  let copy := (s.aisle (1 - a)).words.filter (fun p => p.1 / 128 = 6)
  s.modAisle a (fun f => copy.foldl (fun f p => { f with words := AMap.set f.words (128 * k + p.1 % 128) p.2 }) (f.eraseSector k))

/-- R497 step 4: the descriptor words of an aisle that are programmed are zeroised. -/
def FlashAisle.closeScrub (f : FlashAisle) : FlashAisle :=
  (f.words.filter (fun p => p.1 / 128 = 7 && p.2 != .zeroised)).foldl (fun f p => f.zero p.1) f

/-- R497: a sector is rewritten with the words given, through the other aisle's scrub spare and descriptor. -/
def State.rewriteFrom (s : State) (a k : Nat) (kept : List (Nat × FlashWord)) : State :=
  ((s.modAisle (1 - a) (fun g => g.spare a k kept)).spareBack a k).modAisle (1 - a) FlashAisle.closeScrub

/-- R497: at power-on reset a rewrite that a programmed descriptor word names is completed from step 2, if the copy matches its
CRC. -/
def State.scrubResume (s : State) : State :=
  ([0, 1] : List Nat).foldl (fun s o =>
    let g := s.aisle o
    let sum := crc32 (g.sectorBytes 6)
    let named := fun (p : Nat × FlashWord) =>
      if p.1 / 128 ≠ 7 then none
      else match p.2 with
        | .programmed d => (List.range 2048).find? (fun k => d == Config.scrubWord (1 - o) k sum)
        | _ => none
    match g.words.findSome? named with
    | some k => (s.spareBack (1 - o) k).modAisle o FlashAisle.closeScrub
    | none => s) s

end Sys2Proof.Machine
end

