-- ==== Sys2Proof/Machine/LogOps.lean ====
section
/-!
DEFINITION. Sys2Proof/Machine/LogOps.lean: the event log (R477 to R479, R500).
-/
namespace Sys2Proof.Machine

/-- The kinds of record the Sacristy writes, with the range of the table "Record type ranges" (R477). -/
inductive LogKind where
  | powerOn | naveStart | sacReset | bankVolts | roleRefused | testenLow | refLost | startTimeout | lost | bootselReserved
  | sealedRange | countersInvalid
  | taken | released | heartbeatLost | naveLockdown | stringOpen | stringShort | hot | ntcFault | overcurrent | ntcCut
  | implausible | selfTest | noString | undervolt | rail
  | derateLevel | badSensor | thermalShutdown
  | memUncorrectable | sacRefused
  | flashFailed | wornOut | badWord | configDefault | configField | imageFailed | confirmFailed | slotChange
  | lifeCycle | trngFail
deriving DecidableEq, Repr

/-- R477: the high byte of TYPE. -/
def LogKind.range : LogKind → Nat
  | .powerOn | .naveStart | .sacReset | .bankVolts | .roleRefused | .testenLow | .refLost | .startTimeout | .lost
  | .bootselReserved | .sealedRange | .countersInvalid => 0
  | .taken | .released | .heartbeatLost | .naveLockdown | .stringOpen | .stringShort | .hot | .ntcFault | .overcurrent
  | .ntcCut | .implausible | .selfTest | .noString | .undervolt | .rail => 1
  | .derateLevel | .badSensor | .thermalShutdown => 2
  | .memUncorrectable | .sacRefused => 3
  | .flashFailed | .wornOut | .badWord | .configDefault | .configField | .imageFailed | .confirmFailed | .slotChange => 4
  | .lifeCycle | .trngFail => 5

/-- R477: TYPE of a record: its range, and a low byte the spec does not give (from 1 in range 0). -/
def LogKind.type (k : LogKind) : BitVec 16 :=
  let b := (Config.logType k.range k.ctorIdx).toNat
  BitVec.ofNat 16 (256 * k.range + if k.range = 0 then b % 255 + 1 else b)

/-- R477: the 32 bytes of a record. -/
def State.logWord (s : State) (seq : BitVec 32) (typ : BitVec 16) (src sev : Nat) (data : BitVec 96) : BitVec 256 :=
  let b := toBytes 8 s.tt.sac.toNat ++ toBytes 4 seq.toNat ++ toBytes 2 typ.toNat ++
    [BitVec.ofNat 8 src, BitVec.ofNat 8 ((!s.tt.sacSynced).toNat + 2 * sev)] ++ toBytes 12 data.toNat ++
    toBytes 2 s.sac.powerons.toNat
  BitVec.ofNat 256 (ofBytes (b ++ toBytes 2 (crc16 b).toNat))

/-- R478, R488: the log region begins at word 0x45_0000 / 32 of the North aisle, sector 0x450. -/
def logWord0 : Nat := 0x450000 / 32

/-- R478: program one record; on entering a sector the next one is erased. -/
def State.logProgram (s : State) (d : BitVec 256) : State :=
  let p := s.sac.log.place
  let s := s.modAisle 0 (fun f =>
    let nxt := 0x450 + (p / 128 + 1) % 256
    let f := if p % 128 = 0 ∧ f.mayErase nxt then f.eraseSector nxt else f
    let f := if (f.word (logWord0 + p)).isSome ∧ p % 128 = 0 ∧ f.mayErase (0x450 + p / 128) then f.eraseSector (0x450 + p / 128) else f
    f.prog (logWord0 + p) d)
  { s with sac := { s.sac with log := { s.sac.log with place := (p + 1) % 32768 } } }

/-- R500: records that wait are programmed once the North aisle has no command. -/
def State.logFlush (s : State) : State :=
  if (s.aisle 0).cmd.isSome then s
  else
    let q := s.sac.log.queue
    let s := { s with sac := { s.sac with log := { s.sac.log with queue := [] } } }
    q.foldl State.logProgram s

/-- An admitted record takes its SEQ and joins the queue. -/
def State.logPut (s : State) (typ : BitVec 16) (src sev : Nat) (data : BitVec 96) : State :=
  let d := s.logWord s.sac.log.seq typ src sev data
  let l := s.sac.log
  { s with sac := { s.sac with log := { l with seq := l.seq + 1, queue := l.queue ++ [d] } } }

/-- R479: whether a record is admitted, and the log with the tokens it takes. -/
def EventLog.accepts (l : EventLog) (ms sev : Nat) (nave : Bool) : Option EventLog :=
  let recent := l.sev3.filter (fun t => ms < t + 3600000)
  if nave ∧ l.naveBucket < 1000 then none
  else if 1000 ≤ l.bucket then
    some { l with bucket := l.bucket - 1000, naveBucket := if nave then l.naveBucket - 1000 else l.naveBucket }
  else if sev = 3 ∧ recent.length < 16 then
    some { l with sev3 := recent ++ [ms], naveBucket := if nave then l.naveBucket - 1000 else l.naveBucket }
  else none

/-- R477, R479: offer a record; the answer says whether it was admitted. -/
def State.logOffer (s : State) (typ : BitVec 16) (src sev : Nat) (data : BitVec 96) (nave : Bool) : Bool × State :=
  match s.sac.log.accepts s.sac.ms sev nave with
  | none =>
    let l := s.sac.log
    (false, { s with sac := { s.sac with log := { l with lost := l.lost + 1, drops := l.drops + 1,
                                                           naveDrops := l.naveDrops + nave.toNat } } })
  | some l =>
    let n := l.lost
    let s := { s with sac := { s.sac with log := { l with lost := 0 } } }
    let s := if n = 0 then s else s.logPut LogKind.lost.type 1 1 (Config.logData 0 LogKind.lost.ctorIdx n)
    (true, (s.logPut typ src sev data).logFlush)

/-- The Sacristy writes one record of a kind, about a number. -/
def State.log (s : State) (k : LogKind) (sev : Nat) (arg : Nat := 0) (src : Nat := 1) : State :=
  (s.logOffer k.type src sev (Config.logData k.range k.ctorIdx arg) false).2

end Sys2Proof.Machine
end

