-- ==== Sys2Proof/Machine/SacConf.lean ====
section
/-!
DEFINITION. Sys2Proof/Machine/SacConf.lean: the fields of the Sacristy configuration record (R459, R460, R534, R535):
layout, ranges, defaults and pairing conditions, the two copies in flash, and the record in force. A record in force
that is empty stands for "no valid copy": every field is then at its default.
-/
namespace Sys2Proof.Machine

/-- A field of the record as it stands, or none in an empty record. -/
def confRaw (c : List Byte) (off n : Nat) : Option Nat := if c.length < 256 then none else some (leField c off n)

/-- R460: a field outside its range is taken at its default. -/
def confNat (c : List Byte) (off n lo hi dflt : Nat) : Nat :=
  match confRaw c off n with
  | some v => if lo ≤ v ∧ v ≤ hi then v else dflt
  | none => dflt

/-- The same for a signed field. -/
def confInt (c : List Byte) (off n : Nat) (lo hi dflt : Int) : Int :=
  match confRaw c off n with
  | some v =>
    let w : Int := if v ≥ 2 ^ (8 * n - 1) then (v : Int) - 2 ^ (8 * n) else v
    if lo ≤ w ∧ w ≤ hi then w else dflt
  | none => dflt

/-- FLAGS.LOCK. -/
def confLock (c : List Byte) : Bool := (confRaw c 8 4).getD 0 % 2 == 1
/-- BUDGET in 10 mW. -/
def confBudget (c : List Byte) : Nat := confNat c 0x0C 2 500 2700 2700
/-- VIGIL_PM. -/
def confVigilPm (c : List Byte) : Nat := confNat c 0x10 2 100 1000 600
/-- VIGIL_PERIOD. -/
def confVigilPeriod (c : List Byte) : Nat := confNat c 0x12 2 999 65535 39999
/-- RATED_DUTY0 and RATED_DUTY1. -/
def confRated (c : List Byte) (n : Nat) : Nat :=
  confNat c (0x14 + 4 * n) 4 0 (16 * (confVigilPeriod c + 1)) (16 * (confVigilPeriod c + 1))
/-- VIGIL_OUT. -/
def confVigilOut (c : List Byte) : Nat := confNat c 0x1C 1 0 0x0F 0x0F
/-- VIGIL_ARC. -/
def confVigilArc (c : List Byte) : Nat := confNat c 0x1D 1 1 254 235
/-- VIGIL_DIM. -/
def confVigilDim (c : List Byte) : Nat := confNat c 0x1E 2 0 1000 600
/-- DALI_REPEAT. -/
def confDaliRepeat (c : List Byte) : Nat := confNat c 0x20 2 10 3600 60
/-- HB_GRACE. -/
def confHbGrace (c : List Byte) : Nat := confNat c 0x22 2 500 10000 2000
/-- SUP_FLAGS (R535). -/
def confSup (c : List Byte) : Nat := confNat c 0x40 2 0 0x3FF 0
/-- A bit of SUP_FLAGS. -/
def confSupBit (c : List Byte) (i : Nat) : Bool := (confSup c).testBit i
/-- ISNS_MAXn_MV. -/
def confIsnsMax (c : List Byte) (n : Nat) : Nat :=
  let v := confNat c (0x42 + 2 * n) 2 0 2400 0
  if v < 20 then 0 else v
/-- ISNS_DARK_MV. -/
def confDark (c : List Byte) : Nat := confNat c 0x46 2 1 500 10
/-- VSTR_OPEN_MV. -/
def confVstrOpen (c : List Byte) : Nat := confNat c 0x48 2 100 3200 2400
/-- VSTR_SHORT_MV. -/
def confVstrShort (c : List Byte) : Nat := confNat c 0x4A 2 0 3200 200
/-- R534: two fields whose pairing condition fails are both taken at their defaults. -/
def confPair (a b : Nat) (ok : Bool) (da db : Nat) : Nat × Nat := if ok then (a, b) else (da, db)
/-- NTC_HOT_MV and NTC_CUT_MV. -/
def confNtc (c : List Byte) : Nat × Nat :=
  let h := confNat c 0x4C 2 50 3200 800
  let k := confNat c 0x4E 2 50 3200 600
  confPair h k (k < h) 800 600
/-- PD_NIGHT_MV and PD_DAY_MV. -/
def confPd (c : List Byte) : Nat × Nat :=
  let n := confNat c 0x50 2 1 3200 100
  let d := confNat c 0x52 2 1 3200 300
  confPair n d (n < d) 100 300
/-- PD_MIN_MV. -/
def confPdMin (c : List Byte) : Nat := confNat c 0x54 2 0 3200 5
/-- PD_MAX_MV. -/
def confPdMax (c : List Byte) : Nat := confNat c 0x56 2 0 3300 3000
/-- LAT in millionths of a degree. -/
def confLat (c : List Byte) : Int := confInt c 0x58 4 (-90000000) 90000000 0
/-- LON in millionths of a degree. -/
def confLon (c : List Byte) : Int := confInt c 0x5C 4 (-180000000) 180000000 0
/-- ELEV_NIGHT and ELEV_DAY in hundredths of a degree. -/
def confElev (c : List Byte) : Int × Int :=
  let n := confInt c 0x60 2 (-1800) 1000 (-100)
  let d := confInt c 0x62 2 (-1800) 1000 100
  if n ≤ d then (n, d) else (-100, 100)
/-- PD_FILT. -/
def confPdFilt (c : List Byte) : Nat := confNat c 0x64 2 10 600 60
/-- RETURN_MS. -/
def confReturnMs (c : List Byte) : Nat := confNat c 0x66 2 1000 60000 10000
/-- SELFTEST_HOUR. -/
def confTestHour (c : List Byte) : Nat := confNat c 0x68 1 0 23 12

/-- R535, R536: string n is supervised (declared, a lamp is connected, and not latched off: R531). -/
def State.supervised (s : State) (n : Nat) : Bool :=
  confSupBit s.sac.conf n && !confSupBit s.sac.conf 7 && !(vget s.sac.safety.str n StringSup.init).latched

/-- R460: fields that lie outside their ranges, by offset (each writes one record when the record is read). -/
def confBadFields (c : List Byte) : List Nat :=
  if c.length < 256 then []
  else
    let p := confVigilPeriod c
    let bad := fun (t : Nat × Nat × Nat × Nat) => let v := leField c t.1 t.2.1; v < t.2.2.1 ∨ t.2.2.2 < v
    let t := [(0x0C, 2, 500, 2700), (0x10, 2, 100, 1000), (0x12, 2, 999, 65535), (0x14, 4, 0, 16 * (p + 1)),
      (0x18, 4, 0, 16 * (p + 1)), (0x1C, 1, 0, 15), (0x1D, 1, 1, 254), (0x1E, 2, 0, 1000), (0x20, 2, 10, 3600),
      (0x22, 2, 500, 10000), (0x40, 2, 0, 0x3FF), (0x46, 2, 1, 500), (0x48, 2, 100, 3200), (0x4A, 2, 0, 3200),
      (0x4C, 2, 50, 3200), (0x4E, 2, 50, 3200), (0x50, 2, 1, 3200), (0x52, 2, 1, 3200), (0x54, 2, 0, 3200),
      (0x56, 2, 0, 3300), (0x64, 2, 10, 600), (0x66, 2, 1000, 60000), (0x68, 1, 0, 23)]
    let isns := ([0x42, 0x44] : List Nat).filter (fun o => let v := leField c o 2; decide ((v ≠ 0 ∧ v < 20) ∨ 2400 < v))
    let sgn := fun (o n : Nat) => let v := leField c o n; if v ≥ 2 ^ (8 * n - 1) then (v : Int) - 2 ^ (8 * n) else (v : Int)
    let st : List (Nat × Nat × Int × Int) := [(0x58, 4, -90000000, 90000000), (0x5C, 4, -180000000, 180000000), (0x60, 2, -1800, 1000), (0x62, 2, -1800, 1000)]
    (t.filter (fun x => decide (bad x))).map (fun x => x.1) ++ isns ++
      (st.filter (fun x => decide (sgn x.1 x.2.1 < x.2.2.1 ∨ x.2.2.2 < sgn x.1 x.2.1))).map (fun x => x.1)

/-- R459: the copy of an aisle, if its MAGIC and CRC are right. -/
def State.confCopy (s : State) (a : Nat) : Option (List Byte) :=
  match (s.aisle a).read 0x1000 256 with
  | none => none
  | some c => if leField c 0 4 = 0x47464353 ∧ leField c 0xFC 4 = (crc32 (c.take 0xFC)).toNat then some c else none

/-- R459: the valid copy of higher SEQ, with its aisle. -/
def State.confNewest (s : State) : Option (Nat × List Byte) :=
  match s.confCopy 0, s.confCopy 1 with
  | some a, some b => if leField a 4 4 < leField b 4 4 then some (1, b) else some (0, a)
  | some a, none => some (0, a)
  | none, some b => some (1, b)
  | none, none => none

/-- R459, R460: the record is read at a Sacristy start; what is out of range is recorded. -/
def State.confLoad (s : State) : State :=
  match s.confNewest with
  | none => ({ s with sac := { s.sac with conf := [], budget := 2700 } }).log .configDefault 1
  | some (_, c) =>
    let s := { s with sac := { s.sac with conf := c, budget := confBudget c } }
    (confBadFields c).foldl (fun s f => s.log .configField 1 f) s

/-- R464: step 5 loads the vigil generator. -/
def State.vigilLoad (s : State) : State :=
  let c := s.sac.conf
  { s with sac := { s.sac with vigil :=
      { pm := confVigilPm c, period := confVigilPeriod c, rated0 := confRated c 0, rated1 := confRated c 1,
        out := BitVec.ofNat 8 (confVigilOut c), arc := confVigilArc c, dim := confVigilDim c,
        repeatS := confDaliRepeat c, count := 0, phase := 0 } } }

/-- R465: one tick of 10 ns of the vigil generator, once it is loaded. -/
def State.vigilTick (s : State) : State :=
  let v := s.sac.vigil
  if ¬ s.power.vigilArmed then s
  else if v.count < v.period then { s with sac := { s.sac with vigil := { v with count := v.count + 1 } } }
  else { s with sac := { s.sac with vigil := { v with count := 0, phase := v.phase + 1 } } }

/-- R465: the duty of LP0 or LP1 in sixteenths of a tick while the Sacristy drives it. -/
def State.vigilDuty (s : State) (n : Nat) : Nat :=
  let v := s.sac.vigil
  if v.out.getLsbD n then (if n = 0 then v.rated0 else v.rated1) * v.pm / 1000 else 0

/-- R436: the order of the four bits of k reversed. -/
def bitrev4 (k : Nat) : Nat := k % 2 * 8 + k / 2 % 2 * 4 + k / 4 % 2 * 2 + k / 8 % 2

/-- R465, R466: the level that the vigil generator gives LPn: LP0 and LP1 at vigil duty with the dither of R436, the
others low. -/
def State.vigilLp (s : State) (n : Nat) : Bool :=
  let d := s.vigilDuty n
  s.power.vigilArmed && decide (n < 2) &&
    decide (s.sac.vigil.count < d / 16 + if bitrev4 s.sac.vigil.phase.toNat < d % 16 then 1 else 0)

end Sys2Proof.Machine
end

