-- ==== Sys2Proof/Machine/Resets.lean ====
section
/-!
DEFINITION. Sys2Proof/Machine/Resets.lean: taking the lamp outputs (R443, R448, R465, R521), the resets of R101 and what
each resets, and the updates of the challenges and slots that they bring (R472, R474, R494).
-/
namespace Sys2Proof.Machine

/-! ## The lamp -/

/-- R527, R531, R532: a hardware or temperature cut of string n is in force. -/
def State.cutOn (s : State) (n : Nat) : Bool :=
  let x := vget s.sac.safety.str n StringSup.init
  x.cut || x.latched || x.ntcCut

/-- R527: it is day when both votes are day. -/
def State.isDay (s : State) : Bool := !s.sac.safety.pdNight && !s.sac.safety.schedNight

/-- R527, R523: the level that LDRV_ENn takes: low under a cut; with the Nave drive passed, low while REQn is 0 by day;
else high once the vigil path is armed. -/
def State.ldrvLevel (s : State) (n : Nat) : Bool :=
  s.power.vigilArmed && !s.cutOn n && (s.sac.mux.taken || s.flag (aLamp 4) n || !s.isDay)

/-- The LDRV_EN balls follow R527. -/
def State.setLdrv (s : State) : State :=
  { s with sac := { s.sac with mux := { s.sac.mux with ldrvEn := (if s.ldrvLevel 0 then 1 else 0) + (if s.ldrvLevel 1 then 2 else 0) } } }

/-- R447: the Nave's frame ends with a RESULT: DONE is set and BUSY falls. -/
def State.daliResult (s : State) (res : Nat) : State :=
  let s := { s with dali := { s.dali with busy := false } }
  (s.setField (aLamp 0x14) 3 1 res).hwSet (aLamp 0x14) 0x10

/-- R465: the frame of the vigil generator. -/
def State.vigilFrame (s : State) : BitVec 16 := BitVec.ofNat 16 (0xFE00 + s.sac.vigil.arc)

/-- R521, R448, R465: the Sacristy takes every output; a Nave frame on the bus is cut, and the vigil frame is sent once
when DALI is enabled in VIGIL_OUT. VIGIL_N goes low (R48), and LDRV_EN0 and LDRV_EN1 high unless a cut holds them (R47). -/
def State.takeLamp (s : State) : State :=
  if s.sac.mux.taken then s
  else
    let s := if s.dali.busy then s.daliResult 5 else s
    let s := if s.sac.mux.sacDali then s else
      { s with dali := { s.dali with sacFrame := if s.sac.vigil.out.getLsbD 2 then some s.vigilFrame else none } }
    let s := { s with
      pins := putBit s.pins 0 false
      sac := { s.sac with
        mux := { s.sac.mux with taken := true, sacLp := 0xFF, sacDali := true, sacDim := true }
        safety := { s.sac.safety with releaseFor := 0 } } }
    s.setLdrv

/-- R521: a take cause (8 to 17) becomes active or inactive; an active one takes the outputs and writes a record of the
kind given. -/
def State.raiseCause (s : State) (c : Nat) (k : LogKind) (sev : Nat) : State :=
  if bit s.sac.safety.causes (c - 8) then s
  else
    let s := { s with sac := { s.sac with safety := { s.sac.safety with causes := putBit s.sac.safety.causes (c - 8) true } } }
    (s.takeLamp).log k sev c

/-- R521: a cause clears. -/
def State.clearCause (s : State) (c : Nat) : State :=
  { s with sac := { s.sac with safety := { s.sac.safety with causes := putBit s.sac.safety.causes (c - 8) false } } }

/-! ## Nave reset and Nave power cycle -/

/-- Keys of Nave registers. -/
def naveReg (a : Nat) : Bool := decide (0x20000000 ≤ a ∧ a < 0x30000000)

/-- The Nave registers after a Nave reset: their reset values, but for SYSCTL_RESET_CAUSE, which keeps its word (R101), and for
DALI_STATUS.BUSFAULT_SEEN, which is set while the bus is low (R449). -/
def State.regsAfter (s : State) : List (Nat × W32) :=
  let kept := s.regs.filter (fun p => !naveReg p.1 || p.1 == aCause)
  if s.dali.fault then AMap.set kept (aLamp 0x14) 0x200 else kept

/-- R101: every Nave unit and Nave register at its reset value, Close SRAM, DRAM and their tags cleared;
SYSCTL_RESET_CAUSE keeps its word. Its cause bits are recorded for the next start. DDR0_RESET_N and DDR1_RESET_N stay as they
were while the rails are up, on which the spec is silent (R74; DESIGN CHOICE, log 41). -/
def State.naveReset (s : State) (cause : Nat) : State :=
  let s := if s.power.navePhase = .running then s.takeLamp else s
  { s with
    regs := s.regsAfter, latches := s.latches.filter (fun p => !naveReg p.1),
    holds := s.holds.filter (fun p => !naveReg p.1),
    mem := { s.mem with cells := s.mem.cells.filter (fun c => decide (aWindow ≤ c.1 ∧ c.1 < aWindow + 0x10000) || decide (sacSpace ≤ c.1)),
                        tags := s.mem.tags.filter (fun g => decide (sacSpace ≤ g * 16)), poisonLines := [],
                        poisonGranules := s.mem.poisonGranules.filter (fun g => decide (sacSpace ≤ g * 16)),
                        latent := s.mem.latent.filter (fun p => decide (sacSpace ≤ p.1 * 16)), latentTags := [], written := [],
                        chan := Vector.replicate 2 { state := .notStarted, dev := none, temp := 0 }, mapFixed := false },
    caches := Caches.init, screen := Screen.init,
    stalls := Vector.ofFn (fun (i : Fin 33) => if i.val = 32 then s.stall 32 else if i.val = 0 then Stall.boot else Stall.init),
    cores := Vector.replicate 4 Core.init, events := Events.init,
    ring := { Ring.init with node := if s.gateway then some 0 else none },
    tp := Vector.replicate 4 TPortState.init, cph := { Cph.init with entropyFail := s.sac.trngFail }, clr := Clr.init,
    tmr := Tmr.init s.tmr.cycles,
    dali := { s.dali with busy := false },
    hatch := Hatch.init, lsio := Lsio.init (s.lsio.uart.map (fun u => u.ctsN)) s.lsio.gpioIn, tap := Tap.init,
    dbg := Dbg.init, pins := putBit s.pins 1 false,
    tt := { s.tt with now := 0, trimPpb := 0, frac := 0, setWait := none, ppsOut := false, inUse := false },
    power := { s.power with navePhase := .down, starting := none, started := 0, toStart := 0, outUntilStart := 0, booting := false
                            relocking := s.power.relocking.filter (fun i => i == .sacristy),
                            nextCauses := putBit s.power.nextCauses cause true },
    sac := { s.sac with
      naveTemp := Vector.replicate 8 none, badSensors := 0,
      hb := { s.sac.hb with missed := 0, armed := false, grace := false, posted := [] },
      safety := { s.sac.safety with causes := (putBit s.sac.safety.causes 8 true) &&& ~~~ 0x80#10, releaseFor := 0 },
      upd := { s.sac.upd with measured := false, deadline := none, expired := false, recovery := false },
      flash := s.sac.flash.map (fun f => { f with
        cmd := f.cmd.map (fun c => { c with nave := none })
        queue := f.queue.map (fun c => { c with nave := none }) }) } }

/-- R88: a Nave power cycle: Nave reset, and the rails go down. -/
def State.powerCycle (s : State) (cause : Nat) : State :=
  let s := s.naveReset cause
  { s with power := { s.power with rails := [], cycleWait := true, ddrResetN := 0, banks := Vector.replicate 4 .openBank },
           sac := { s.sac with derate := { s.sac.derate with vddTo := none } } }

/-- R101, R102: a Nave reset is requested; it takes effect while the Nave die is up. -/
def State.requestNaveReset (s : State) (cause : Nat) : State :=
  if s.power.navePhase = .down then { s with power := { s.power with nextCauses := putBit s.power.nextCauses cause true } }
  else s.naveReset cause

/-! ## Sacristy reset -/

/-- R494: the command of an aisle is interrupted: an erase leaves its sectors incomplete, a program or ZERO leaves each
word in a state that is not specified (log 10). -/
def State.flashAbort (s : State) (a : Nat) : State :=
  match (s.aisle a).cmd with
  | none => s.modAisle a (fun f => { f with queue := [] })
  | some c =>
    let s := match c.op with
      | .eraseSector | .eraseBlock =>
        s.modAisle a (fun f => (List.range (FlCmd.sectors c).2).foldl (fun f i =>
          let k := (FlCmd.sectors c).1 + i
          { f with words := f.words.filter (fun p => p.1 / 128 ≠ k), hdrs := AMap.set f.hdrs k ⟨(f.hdr k).count, true⟩ }) f)
      | .mread => s
      | _ =>
        (List.range c.n).foldl (fun s i =>
          let (b, s) := s.drawWord
          s.modAisle a (fun f =>
            let w := c.word + i
            match b.toNat % 4 with
            | 0 => f
            | 1 =>
              let v : FlashWord := if c.op = FlOp.program then .programmed (c.data.getD i 0) else .zeroised
              { f with words := AMap.set f.words w v }
            | 2 => f.zero w
            | _ => { f with words := AMap.set f.words w .uncorrectable })) s
    let s := s.modAisle a (fun f => { f with cmd := none, queue := [], susp := false })
    (s.hwSet (aFl a 8) 0x100).setField (aFl a 8) 7 4 4

/-- The FL registers that a Sacristy reset resets: all but FL_ADDR, ABORT and the two counters (R494). -/
def State.flReset (s : State) (a : Nat) : State :=
  let keep := s.reg (aFl a 8) &&& 0x100
  let s := { s with regs := s.regs.filter (fun p => !(decide (aFl a 0 ≤ p.1 ∧ p.1 < aFl a 0x1000)) ||
               p.1 == aFl a 4 || decide (aFl a 0x18 ≤ p.1 ∧ p.1 < aFl a 0x28)) }
  s.setReg (aFl a 8) keep

/-- R101, R467, R472: a Sacristy reset: the Sacristy core and RAM, the Sacristy side of the Hatch, flash commands in
progress and what the firmware holds; the multiplexer selects the Sacristy drive, and Hatch READY falls. `why` is the
cause number 0 lockstep, 1 watchdog, 2 request. -/
def State.sacReset (s : State) (why : Nat) : State :=
  let s := ((s.flashAbort 0).flashAbort 1)
  let s := (s.flReset 0).flReset 1
  let s := s.takeLamp
  let s := s.clearMem aWindow (aWindow + 0x10000)
  let s := s.clearMem (sacSpace + 0x100000) (sacSpace + 0x140000)
  let s := { s with
    mem := { s.mem with tags := s.mem.tags.filter (fun g => decide (g * 16 < sacSpace)),
                        poisonGranules := s.mem.poisonGranules.filter (fun g => decide (g * 16 < sacSpace)),
                        latent := s.mem.latent.filter (fun p => decide (p.1 * 16 < sacSpace)) },
    stalls := vset s.stalls 32 Stall.init, hatch := Hatch.init,
    power := { s.power with sacPhase := .inReset, admitPaused := true, sacCauses := putBit s.power.sacCauses why true },
    sac := { s.sac with
      nonce := none, svcRx := [], coreCycle := 0,
      hb := { s.sac.hb with posted := [], missed := 0, armed := false, grace := false },
      safety := { s.sac.safety with schedNight := true, darkFor := 0, releaseFor := 0,
                                    causes := s.sac.safety.causes &&& ~~~ 0x3#10 },
      upd := { s.sac.upd with staging := none, measured := false, deadline := none } } }
  (s.unitDown 20).hwSet aCause 0x1000

/-! ## Power-on reset -/

/-- R101: power-on reset: everything but what flash and the fuses hold, and the levels that come from outside: after the fall
of a VSAC rail (`byVin` false) VIN stands where it stood (R68), after VIN_POR it has still to rise. VIN as last measured is kept
over it (DESIGN CHOICE, log 38). -/
def State.powerOnReset (s : State) (byVin : Bool) : State :=
  let s := (s.flashAbort 0).flashAbort 1
  let x := State.reset
  { x with
    chip := s.chip, pending := s.pending, freeCtr := s.freeCtr, answer := s.answer,
    lsio := Lsio.init (s.lsio.uart.map (fun u => u.ctsN)) s.lsio.gpioIn,
    power := { Power.init with
      extRstN := s.power.extRstN, srefGood := s.power.srefGood, vinMv := s.power.vinMv
      vinOn := !byVin && s.power.vinOn, vpre := !byVin && s.power.vpre
      boWait := byVin || s.power.boWait, brownOut := !byVin && s.power.brownOut
      porCauses := if byVin then 1 else 2 },
    sac := { Sac.init with
      life := if s.sac.life = .fieldOpenDebug then .field else s.sac.life, zeroising := s.sac.zeroising,
      keys := s.sac.keys, powerons := s.sac.powerons + 1, epochs := s.sac.epochs, naveStarts := s.sac.naveStarts,
      log := { Sac.init.log with seq := s.sac.log.seq, place := s.sac.log.place },
      upd := { Sac.init.upd with f0 := s.sac.upd.f0, f1 := s.sac.upd.f1, slots := s.sac.upd.slots },
      flash := s.sac.flash.map (fun f => { f with cmd := none, queue := [], susp := false }) } }

end Sys2Proof.Machine
end

