-- ==== Sys2Proof/Machine/Hatch.lean ====
section
/-!
DEFINITION. Sys2Proof/Machine/Hatch.lean: the doorbell slots, the heartbeat, the services of the Sacristy chapter and
the telemetry page (R467 to R477, R481 to R483).
-/
namespace Sys2Proof.Machine

/-! ## Slots -/

/-- The 60 bytes MSG and HDR of a slot. -/
def HSlot.bytes (h : HSlot) : List Byte := h.words.toList.flatMap (fun w => toBytes 4 w.toNat)
/-- HDR.TYPE of a slot. -/
def HSlot.type (h : HSlot) : Nat := bits (vget h.words 14 0) 15 0
/-- HDR.TAG of a slot. -/
def HSlot.tagB (h : HSlot) : Byte := (vget h.words 14 0).extractLsb' 24 8
/-- A FULL slot with a message. -/
def HSlot.mk56 (typ : Nat) (tag : Byte) (msg : List Byte) : HSlot :=
  let b := (msg ++ List.replicate (56 - msg.length) 0).take 56 ++ toBytes 2 typ ++ [BitVec.ofNat 8 msg.length, tag]
  { words := Vector.ofFn (fun (i : Fin 15) => BitVec.ofNat 32 (leField b (4 * i.val) 4)), full := true }

/-- A Nave-to-Sacristy slot. -/
def State.txSlot (s : State) (i : Nat) : HSlot := vget s.hatch.tx i HSlot.empty
/-- A Sacristy-to-Nave slot. -/
def State.rxSlot (s : State) (i : Nat) : HSlot := vget s.hatch.rx i HSlot.empty

/-- FULLMAP of a direction. -/
def fullMap (v : Vector HSlot 16) : Nat := (List.range 16).foldl (fun m i => if (vget v i HSlot.empty).full then m + 2 ^ i else m) 0

/-- R471: the Sacristy writes a slot of its direction and rings it. -/
def State.postRx (s : State) (i : Nat) (h : HSlot) : State :=
  ({ s with hatch := { s.hatch with rx := vset s.hatch.rx i h } }).raise (if i = 15 then 43 else 42)

/-- R471: the Sacristy never writes a FULL slot: an answer waits until the Nave has acknowledged what the slot holds. -/
def State.postWhenFree (s : State) (i : Nat) (h : HSlot) : State :=
  if (s.rxSlot i).full then { s with hatch := { s.hatch with late := s.hatch.late ++ [(i, h)] } } else s.postRx i h

/-- R475: the answer to a request: TYPE bit 15, the TAG, the status in bytes 0 to 3. -/
def State.answerSlot (s : State) (i : Nat) (typ : Nat) (tag : Byte) (status : Nat) (rest : List Byte := []) : State :=
  s.postWhenFree i (HSlot.mk56 (typ % 0x8000 + 0x8000) tag (toBytes 4 status ++ rest))

/-- R475: the TYPEs of the table "Hatch services". -/
def knownService (t : Nat) : Bool :=
  [0x1, 0x2, 0x10, 0x11, 0x20, 0x21, 0x30, 0x31, 0x32, 0x40, 0x41, 0x42, 0x43,
   0x50, 0x51, 0x52, 0x53, 0x54, 0x55, 0x56, 0x57, 0x58].contains t

/-- R470: the Sacristy takes a request: the slot returns to EMPTY. -/
def State.freeTx (s : State) (i : Nat) : State :=
  { s with hatch := { s.hatch with tx := vmod s.hatch.tx i (fun h => { h with full := false }),
                                   order := s.hatch.order.filter (fun j => j.val ≠ i) } }

/-- R475: requests of an unknown TYPE at the head of the order are answered UNKNOWN. -/
def State.serveUnknown : Nat → State → State
  | 0, s => s
  | n + 1, s =>
    match s.hatch.order with
    | [] => s
    | i :: _ =>
      let h := s.txSlot i.val
      if i.val = 15 ∨ knownService h.type ∨ ¬ s.fw then s
      else State.serveUnknown n ((s.freeTx i.val).answerSlot i.val h.type h.tagB 1)

/-- R470: RING is written to a Nave-to-Sacristy slot. -/
def State.hatchRing (s : State) (i : Fin 16) : State :=
  if (s.txSlot i.val).full then s
  else
    let s := { s with hatch := { s.hatch with
      tx := vmod s.hatch.tx i.val (fun h => { h with full := true })
      order := s.hatch.order ++ [i] } }
    State.serveUnknown 16 (s.sacEvent 4)

/-- An access to the Hatch registers while Hatch READY is 0 sets EARLY bit 20 (R36, R472). -/
def State.hatchEarly (s : State) : State := s.missEarly 20

/-- R470: HATCH_TX_RING. -/
def execHatchTxRing (i : Fin 16) (s : State) : Out :=
  .next (if s.unitReady 20 then s.hatchRing i else s.hatchEarly)

/-- R471: the oldest answer that waits for a slot is written to it. -/
def State.postLate (s : State) (i : Nat) : State :=
  match s.hatch.late.find? (fun p => p.1 = i) with
  | none => s
  | some p => { s with hatch := { s.hatch with late := s.hatch.late.eraseP (fun q => q.1 = i) } }.postRx i p.2

/-- R471: ACK returns a Sacristy-to-Nave slot to EMPTY. -/
def State.hatchAck (s : State) (i : Nat) : State :=
  { s with hatch := { s.hatch with rx := vmod s.hatch.rx i (fun h => { h with full := false }) } }.postLate i

/-- R471: HATCH_RX_ACK. -/
def execHatchRxAck (i : Fin 16) (s : State) : Out :=
  .next (if s.unitReady 20 then s.hatchAck i.val else s.hatchEarly)

/-! ## The heartbeat (R473, R474, R524) -/

/-- R524: the safety status word. -/
def State.statusWord (s : State) : W32 :=
  let x := s.sac.safety
  let l := fun n => (vget x.str n StringSup.init).latched
  let c := fun n => (vget x.str n StringSup.init).ntcCut
  let invalid := !s.tt.sacSynced || !confSupBit s.sac.conf 6
  BitVec.ofNat 32 (s.sac.mux.taken.toNat + 2 * x.pdNight.toNat + 4 * x.schedNight.toNat + 8 * x.pdFault.toNat +
    16 * invalid.toNat + 2 ^ 8 * x.causes.toNat + 2 ^ 20 * (l 0).toNat + 2 ^ 21 * (l 1).toNat +
    2 ^ 22 * (c 0 || c 1).toNat)

/-- R473: a challenge is posted in slot 15. -/
def execHeartbeatChallenge (s : State) : Out :=
  if ¬ s.fw then .next s
  else
    let (r, s) := s.drawWord
    let c : BitVec 32 := r.truncate 32
    let tag : Byte := r.extractLsb' 32 8
    let k := s.sac.hb.seq
    let msg := toBytes 4 c.toNat ++ toBytes 4 k.toNat ++ toBytes 8 s.tt.sac.toNat ++ toBytes 4 s.statusWord.toNat
    let s := { s with sac := { s.sac with hb := { s.sac.hb with seq := k + 1, posted := s.sac.hb.posted ++ [Challenge.mk c k none] } } }
    .next (s.postRx 15 (HSlot.mk56 0x0100 tag msg))

/-- R473: whether a message answers a challenge well. -/
def goodAnswer (typ : Nat) (msg : List Byte) (c : Challenge) : Bool :=
  typ == 0x0100 && leField msg 0 4 == (~~~ c.c).toNat && leField msg 4 4 == c.k.toNat

/-- R473, R474, R522: the Sacristy judges the answer rung in slot 15. -/
def execHeartbeatAnswer (s : State) : Out :=
  match s.hatch.order with
  | [] => .next s
  | i :: _ =>
    if i.val ≠ 15 ∨ ¬ s.fw then .next s
    else
      let h := s.txSlot 15
      let msg := h.bytes
      let req := bit (msg.getD 8 0) 0
      let s := s.freeTx 15
      let good := s.sac.hb.posted.any (goodAnswer h.type msg)
      if ¬ good then .next (State.serveUnknown 16 s)
      else
        let hb := s.sac.hb
        let arms := s.naveRuns && !hb.armed
        let hb : Heartbeat := { hb with
          posted := hb.posted.map (fun c => if goodAnswer h.type msg c then { c with answer := some req } else c),
          armed := hb.armed || arms, grace := hb.grace && !arms, missed := if arms then 0 else hb.missed }
        let s := { s with sac := { s.sac with
          hb := hb, safety := { s.sac.safety with releaseFor := if req then s.sac.safety.releaseFor else 0 } } }
        .next (State.serveUnknown 16 s)

/-- R474: the oldest challenge passes its 20 ms; the second one in a row without a good answer is the loss. -/
def execHeartbeatDeadline (s : State) : Out :=
  match s.sac.hb.posted with
  | [] => .next s
  | c :: rest =>
    if ¬ s.fw then .next s
    else
      let good := c.answer.isSome
      let hb : Heartbeat := { s.sac.hb with posted := rest, missed := if good then 0 else s.sac.hb.missed + 1 }
      let s := (s.sacEvent 5)
      let s := { s with sac := { s.sac with
        hb := hb,
        safety := { s.sac.safety with releaseFor := if good then s.sac.safety.releaseFor else min s.sac.safety.releaseFor 20 } } }
      if hb.armed ∧ hb.missed ≥ 2 then .next ((s.raiseCause 8 .heartbeatLost 3).requestNaveReset 4)
      else .next s

/-- R474: HB_GRACE has passed. -/
def execHeartbeatGraceExpiry (s : State) : Out :=
  if s.fw ∧ s.sac.hb.grace then
    .next { s with sac := { s.sac with hb := { s.sac.hb with grace := false, armed := true, missed := 0 } } }
  else .next s

/-! ## Services (R475) -/

/-- A request of a TYPE in a slot is served when it is the oldest rung and the firmware runs: `f` takes MSG and gives the status
and the bytes from MSG byte 4 (none: the answer comes later). -/
def State.serve (s : State) (i : Fin 16) (typ : Nat)
    (f : List Byte → Byte → State → Option (Nat × List Byte) × State) : State :=
  match s.hatch.order with
  | [] => s
  | j :: _ =>
    let h := s.txSlot i.val
    if j ≠ i ∨ i.val = 15 ∨ h.type ≠ typ ∨ ¬ s.fw then s
    else
      let (a, s) := f h.bytes h.tagB (s.freeTx i.val)
      State.serveUnknown 16 (match a with
        | some (st, rest) => s.answerSlot i.val typ h.tagB st rest
        | none => s)

/-- R475: a range of the shared window that a service may use. -/
def windowOk (off len : Nat) : Bool := decide (off + len ≤ 0xFC00)

/-- R475, R479: LOG_WRITE; bytes 4 and 5 the value, byte 6 the severity, bytes 8 to 19 DATA (DESIGN CHOICE, log 11). -/
def execLogWrite (i : Fin 16) (s : State) : Out :=
  .next (s.serve i 0x1 (fun m _ s =>
    let typ := BitVec.ofNat 16 (0x8000 + leField m 4 2 % 0x8000)
    let (ok, s) := s.logOffer typ 2 (leField m 6 1 % 4) (BitVec.ofNat 96 (leField m 8 12)) true
    (some (if ok then 0 else 4, []), s)))

/-- R478: records held in the log. -/
def EventLog.held (l : EventLog) : Nat :=
  let n := l.seq.toNat
  if n ≤ 32640 + l.place % 128 then n else 32640 + l.place % 128

/-- R475: LOG_INFO: oldest SEQ, newest SEQ, records refused, Nave records refused (DESIGN CHOICE, log 11). -/
def execLogInfo (i : Fin 16) (s : State) : Out :=
  .next (s.serve i 0x2 (fun _ _ s =>
    let l := s.sac.log
    (some (0, toBytes 4 (l.seq.toNat - l.held) ++ toBytes 4 (l.seq.toNat - 1) ++ toBytes 4 l.drops ++ toBytes 4 l.naveDrops), s)))

/-- R475, R481: SIGN: the digest in bytes 4 to 51, the window offset in bytes 52 and 53 (DESIGN CHOICE, log 11); the
signature is a free value (R475 names ECDSA, whose nonce the TRNG draws). -/
def execSign (i : Fin 16) (s : State) : Out :=
  .next (s.serve i 0x10 (fun m _ s =>
    let off := leField m 52 2
    if ¬ windowOk off 96 then (some (2, []), s)
    else if s.sac.trngFail then (some (5, []), s)
    else
      let (sig, s) := s.drawBytes 96
      (some (0, []), s.winWrite off sig)))

/-- R475: CERT: the window offset in bytes 8 and 9; byte 4 on of the answer gives the length (DESIGN CHOICE, log 11). -/
def execCert (i : Fin 16) (s : State) : Out :=
  .next (s.serve i 0x11 (fun m _ s =>
    let off := leField m 8 2
    let c := s.sac.keys.chain
    if windowOk off c.length then (some (0, toBytes 4 c.length), s.winWrite off c) else (some (2, []), s)))

/-- R475: CONFIG_READ: the window offset in bytes 8 and 9 (DESIGN CHOICE, log 11); FAILED when no copy is valid. -/
def execConfigRead (i : Fin 16) (s : State) : Out :=
  .next (s.serve i 0x20 (fun m _ s =>
    let off := leField m 8 2
    if ¬ windowOk off 256 then (some (2, []), s)
    else match s.confNewest with
      | some (_, c) => (some (0, []), s.winWrite off c)
      | none => (some (5, []), s)))

/-- R537: a record that sets LOCK with NOLAMP at 0 is accepted only so. -/
def lockOk (c : List Byte) : Bool :=
  confSupBit c 7 ||
  ((confSupBit c 0 || confSupBit c 1) && confSupBit c 5 && confSupBit c 6 &&
    (!confSupBit c 0 || decide (confDark c < confIsnsMax c 0)) &&
    (!confSupBit c 1 || decide (confDark c < confIsnsMax c 1)) &&
    !(decide (confLat c = 0) && decide (confLon c = 0)))

/-- R461: the record that a CONFIG_WRITE makes of the bytes given: MAGIC, SEQ one above the copy in use, and CRC are the
Sacristy's. -/
def State.confRecord (s : State) (c : List Byte) : List Byte :=
  let seq := match s.confNewest with
    | some (_, o) => leField o 4 4 + 1
    | none => 1
  let body := toBytes 4 0x47464353 ++ toBytes 4 seq ++ (c.take 0xFC).drop 8
  body ++ toBytes 4 (crc32 body).toNat

/-- R461: the aisle of the older copy. -/
def State.confOlder (s : State) : Nat := match s.confNewest with | some (k, _) => 1 - k | none => 0

/-- R461: a new copy goes over the older one. -/
def State.confWrite (s : State) (c : List Byte) : State :=
  let r := s.confRecord c
  let s := s.modAisle s.confOlder (fun f => (f.eraseSector 1).progs 128 (wordsOf 8 r))
  { s with sac := { s.sac with budget := confBudget r } }

/-- R461, R495: a copy that its margin read does not pass: it has gone over the older one, and what each of its words then reads as
is not specified: the data, or an uncorrectable word (log 10). -/
def State.confFail (s : State) (c : List Byte) : State :=
  let r := s.confRecord c
  let a := s.confOlder
  let s := s.modAisle a (fun f => (f.eraseSector 1).progs 128 (wordsOf 8 r))
  (List.range 8).foldl (fun s i =>
    let (b, s) := s.drawBool
    if b then s else s.modAisle a (fun f => { f with words := AMap.set f.words (128 + i) .uncorrectable })) s

/-- R461, R537: CONFIG_WRITE: the window offset in bytes 8 and 9 (DESIGN CHOICE, log 11). -/
def execConfigWrite (i : Fin 16) (token verified : Bool) (s : State) : Out :=
  .next (s.serve i 0x21 (fun m _ s =>
    let off := leField m 8 2
    let c := s.winRead off 256
    if ¬ windowOk off 256 then (some (2, []), s)
    else if confLock s.sac.conf ∧ ¬ token then (some (3, []), s)
    else if confLock c ∧ ¬ lockOk c then (some (2, []), s)
    else if ¬ (s.aisle s.confOlder).mayErase 1 then (some (5, []), s.log .wornOut 2 1)
    else if ¬ verified then (some (5, []), (s.confFail c).log .flashFailed 2)
    else (some (0, []), s.confWrite c)))

/-! ## Life cycle (R481 to R483) -/

/-- R482: LC_CHALLENGE. -/
def execLcChallenge (i : Fin 16) (s : State) : Out :=
  .next (s.serve i 0x30 (fun _ _ s =>
    if s.sac.trngFail then (some (5, []), s)
    else
      let (n, s) := s.drawBytes 32
      (some (0, n), { s with sac := { s.sac with nonce := some n } })))

/-- R482: a token that is signed and carries the serial and the nonce of the latest challenge, which it uses up. -/
def State.tokenOk (s : State) (sigOk : Bool) (nonce : List Byte) : Bool := sigOk && s.sac.nonce == some nonce

/-- R482: LC_DEBUG. -/
def execLcDebug (i : Fin 16) (sigOk : Bool) (nonce : List Byte) (s : State) : Out :=
  .next (s.serve i 0x31 (fun _ _ s =>
    if s.tokenOk sigOk nonce ∧ s.sac.life = .field then
      (some (0, []), ({ s with sac := { s.sac with nonce := none, life := .fieldOpenDebug } }).log .lifeCycle 1 2)
    else (some (3, []), s)))

/-- R483: every key is overwritten with zeros. -/
def State.zeroiseKeys (s : State) : State :=
  let z := fun (f : FlashAisle) => (List.range 256).foldl (fun f k => f.zero (256 + k)) f
  let s := (s.modAisle 0 z).modAisle 1 z
  { s with sac := { s.sac with
    zeroising := false, keys := { device := 0, chain := [], cloister := 0, image := Vector.replicate 2 0, debug := 0 } } }

/-- R482, R483: LC_DECOMMISSION: the fuse first, then the keys; cause 17 holds the lamp for ever. -/
def execLcDecommission (i : Fin 16) (sigOk : Bool) (nonce : List Byte) (s : State) : Out :=
  .next (s.serve i 0x32 (fun _ _ s =>
    if s.tokenOk sigOk nonce ∧ (s.sac.life = .field ∨ s.sac.life = .fieldOpenDebug) then
      let s := ({ s with sac := { s.sac with nonce := none, life := .decommissioned, zeroising := true } }).log .lifeCycle 1 3
      (some (0, []), (s.zeroiseKeys).raiseCause 17 .taken 1)
    else (some (3, []), s)))

/-- R482, R476: the number of a life-cycle state. -/
def LifeCycle.code : LifeCycle → Nat
  | .manufacture => 0
  | .field => 1
  | .fieldOpenDebug => 2
  | .decommissioned => 3

/-- R476: derating causes as the telemetry page and SYSCTL_DERATE show them: thermal, brown-out, wear, ledger. -/
def Derate.wearLevel (d : Derate) : Nat :=
  let a := d.ageing.foldl max 0
  let la := if a ≥ 1200 then 3 else if a ≥ 800 then 2 else if a ≥ 400 then 1 else 0
  let le := d.eyeReq.toList.foldl (fun m r => max m (match r with | some (l, _) => l.toNat | none => 0)) 0
  max (max la le) d.flash.toNat

/-- R462: the causes now above D0. -/
def State.derateCauses (s : State) : Nat :=
  let d := s.sac.derate
  (d.thermal ≠ 0 : Bool).toNat + 2 * s.power.brownOut.toNat + 4 * (decide (d.wearLevel > 0)).toNat + 8 * d.ledger.toNat

/-- A signed number as 16 bits. -/
def int16 (i : Int) : Nat := (BitVec.ofInt 16 i).toNat

/-- R476: the telemetry page is written; SEQ passes through an odd value and ends even. -/
def State.telemetry (s : State) : State :=
  let seq := (leField (s.winRead 0xFC00 4) 0 4 / 2 * 2 + 2) % 2 ^ 32
  let b := toBytes 4 seq ++
    [BitVec.ofNat 8 s.sac.derate.level.toNat, BitVec.ofNat 8 s.derateCauses,
     BitVec.ofNat 8 (s.sac.mux.taken.toNat + 2 * s.sac.hb.armed.toNat), BitVec.ofNat 8 s.sac.life.code] ++
    toBytes 8 s.tt.sac.toNat ++ s.sac.adc.toList.flatMap (toBytes 2) ++
    s.sac.sacTemp.toList.flatMap (fun t => toBytes 2 (int16 t)) ++
    s.sac.naveTemp.toList.flatMap (fun t => toBytes 2 (match t with | some t => int16 t | none => 0x8000)) ++
    toBytes 2 (int16 s.sac.tjmax) ++ [0, 0] ++ toBytes 4 (s.sac.log.seq.toNat - 1)
  s.winWrite 0xFC00 (b ++ List.replicate (0x400 - b.length) 0)

/-- R476: TELEMETRY_UPDATE. -/
def execTelemetryUpdate (s : State) : Out := .next (if s.fw then s.telemetry else s)

end Sys2Proof.Machine
end

