-- ==== Sys2Proof/Machine/Guard.lean ====
section
/-!
DEFINITION. Sys2Proof/Machine/Guard.lean: functional safety: the ADC round and what it supervises, the 1 ms tick, the
votes, the cuts, the self-tests and giving the lamp back (R457, R465, R521 to R533).
-/
namespace Sys2Proof.Machine

/-- R528, R530: string n is driven: without its PWM flag always, else while the duty in force on LPn is not 0. -/
def State.driven (s : State) (n : Nat) : Bool :=
  if ¬ confSupBit s.sac.conf (8 + n) then true
  else if bit s.sac.mux.sacLp n then s.vigilDuty n != 0
  else (vget s.tmr.lp n { state := .stopped, count := 0, presc := 0, clkdiv := 0, phase := 0 }).state == .running &&
    s.reg (aLp n 8) != 0

/-- R528, R530 to R532: what one ADC round does to the supervision of string n. -/
def State.supRound (s : State) (n : Nat) (mv : Nat → Nat) (counted : Bool) (x : StringSup) : StringSup :=
  let c := s.sac.conf
  let on := bit s.sac.mux.ldrvEn n
  let used := confSupBit c n && !confSupBit c 7 && !x.latched
  let isns := mv (9 + n)
  let vstr := mv 11
  let vUsed := n == 0 && confSupBit c 2
  let cnt := on && (counted || !confSupBit c (8 + n))
  let drv := on && used && s.driven n
  let isOpen := used && cnt && decide (isns < confDark c) && (!vUsed || decide (vstr > confVstrOpen c))
  let isShort := used && vUsed && cnt && decide (isns > confDark c) && decide (vstr < confVstrShort c)
  let ntc := mv (12 + n)
  let nFit := confSupBit c (3 + n)
  let nUsed := nFit && !confSupBit c 7
  let hot := nUsed && decide (ntc < (confNtc c).1)
  let bad := nUsed && (decide (ntc < 50) || decide (3200 < ntc))
  let run := fun (cond : Bool) (was : Nat) => if cond then was + 1 else if !cnt && drv && decide (was > 0) then was + 1 else 0
  let coolFor := if nFit && decide (ntc ≤ (confNtc c).1) then 0 else x.coolFor + 1
  { x with
    sinceLit := if cnt && decide (isns > confDark c) then 0 else x.sinceLit + 1
    openFor := run isOpen x.openFor
    openClear := if run isOpen x.openFor = 0 then x.openClear + 1 else 0
    shortFor := run isShort x.shortFor
    shortClear := if run isShort x.shortFor = 0 then x.shortClear + 1 else 0
    hotFor := if hot then x.hotFor + 1 else 0
    hotClear := if hot then 0 else x.hotClear + 1
    coolFor := coolFor
    ntcBad := if bad then x.ntcBad + 1 else 0
    ntcGood := if bad then 0 else x.ntcGood + 1
    ntcCut := nFit && (decide (ntc < (confNtc c).2) || (x.ntcCut && decide (coolFor < 3750000))) }

/-- R525: what one ADC round does to the photodiode's vote. -/
def State.pdRound (s : State) (pd : Nat) (x : Safety) : Safety :=
  let c := s.sac.conf
  let bad := decide (pd < confPdMin c) || decide (confPdMax c < pd)
  let pdBad := if bad then x.pdBad + 1 else 0
  let pdGood := if bad then 0 else x.pdGood + 1
  let fault := if pdBad ≥ 62500 then true else if pdGood ≥ 3750000 then false else x.pdFault
  let below := if pd < (confPd c).1 then x.pdBelow + 1 else 0
  let above := if (confPd c).2 < pd then x.pdAbove + 1 else 0
  let t := 62500 * confPdFilt c
  { x with
    pdBad := pdBad
    pdGood := pdGood
    pdFault := fault
    pdBelow := below
    pdAbove := above
    pdNight := fault || !confSupBit c 5 || (if below ≥ t then true else if above ≥ t then false else x.pdNight) }

/-- R541: the nominal VDD_NAVE in mV at a level. -/
def vddNaveMv (l : Nat) : Nat := if l = 0 then 750 else if l = 1 then 700 else if l = 2 then 650 else 600

/-- R572: the full scale of each channel in the units of the telemetry page: VIN 75 V, input current 10 A, a rail 1.5 times its
nominal voltage (R72), a ball 3,300 mV. -/
def State.adcFull (s : State) : Vector Nat 16 :=
  #v[7500, 10000, 5400, vddNaveMv s.sac.derate.vdd.toNat * 3 / 2, 1275, 1800, 2700, 4950, 1575, 3300, 3300, 3300, 3300, 3300, 3300, 1800]

/-- R572: a reading above full scale reads full scale. -/
def State.adcRead (s : State) (mv : Vector Nat 16) : Vector Nat 16 := Vector.zipWith min mv s.adcFull

/-- R457: ADC_ROUND; the readings are in the units of the telemetry page. -/
def execAdcRound (mv : Vector Nat 16) (counted : BitVec 2) (s : State) : Out :=
  let mv := s.adcRead mv
  if ¬ s.fw then .next ({ s with sac := { s.sac with adc := mv } }.sacEvent 1)
  else
    let m := fun i => vget mv i 0
    let x := s.pdRound (m 14) s.sac.safety
    let str := Vector.ofFn (fun (n : Fin 2) => s.supRound n.val m (bit counted n.val) (vget s.sac.safety.str n.val StringSup.init))
    let s := { s with sac := { s.sac with adc := mv, safety := { x with str := str } } }
    .next ((s.setLdrv).sacEvent 1)

/-- R521: a condition cause follows its condition: raised when it is met, cleared when it has been absent long enough. -/
def State.condition (s : State) (c : Nat) (on off : Bool) (k : LogKind) : State :=
  if on then s.raiseCause c k 3 else if off then s.clearCause c else s

/-- R529: the lamp is dark: no supervised string was lit in the last 50 ms. -/
def State.lampDark (s : State) : Bool :=
  (List.range 2).all (fun n => !s.supervised n || decide ((vget s.sac.safety.str n StringSup.init).sinceLit ≥ 3125))

/-- R522: the conditions of the release hold. -/
def State.releaseHolds (s : State) : Bool :=
  (s.sac.safety.causes &&& 0x3FC#10) == 0 && s.sac.hb.armed

/-- R456, R479: a millisecond passes: the buckets of the log refill, and the Sacristy core has its tick. -/
def State.msTick (s : State) : State :=
  let l := s.sac.log
  { s with sac := { s.sac with
      ms := s.sac.ms + 1
      log := { l with bucket := min 256000 (l.bucket + 3), naveBucket := min 64000 (l.naveBucket + 1) } } }.sacEvent 0

/-- R456, R523: SACRISTY_TICK: the tick, and with the firmware running the take causes of firmware origin, the votes' effect and
the release time. -/
def execSacristyTick (s : State) : Out :=
  let s := s.msTick
  if ¬ s.fw then .next s
  else
    let x := s.sac.safety.str.toList
    let s := s.condition 10 (x.any (fun y => decide (500 ≤ y.openFor))) (x.all (fun y => decide (62500 ≤ y.openClear))) .stringOpen
    let s := s.condition 11 (x.any (fun y => decide (500 ≤ y.shortFor))) (x.all (fun y => decide (62500 ≤ y.shortClear))) .stringShort
    let s := s.condition 12 (x.any (fun y => decide (500 ≤ y.hotFor))) (x.all (fun y => decide (3750000 ≤ y.hotClear))) .hot
    let s := s.condition 13 (x.any (fun y => decide (500 ≤ y.ntcBad))) (x.all (fun y => decide (3750000 ≤ y.ntcGood))) .ntcFault
    let anySup := s.supervised 0 || s.supervised 1
    let dark := anySup && s.lampDark && !s.isDay
    let darkFor := if dark then s.sac.safety.darkFor + 1 else 0
    let s := { s with sac := { s.sac with safety := { s.sac.safety with darkFor := darkFor } } }
    let s := if darkFor ≥ 150 then s.raiseCause 9 .implausible 3 else s
    let s := { s with sac := { s.sac with safety := { s.sac.safety with
      releaseFor := if s.sac.mux.taken && s.releaseHolds then s.sac.safety.releaseFor + 1 else 0 } } }
    .next s.setLdrv

/-- R443: an LPn that is stopped is given back at once. -/
def State.giveStopped (s : State) : State :=
  let m := (List.range 8).foldl (fun (m : BitVec 8) n =>
    if (vget s.tmr.lp n { state := .stopped, count := 0, presc := 0, clkdiv := 0, phase := 0 }).state = .stopped then putBit m n false
    else m) s.sac.mux.sacLp
  { s with sac := { s.sac with mux := { s.sac.mux with sacLp := m } } }

/-- R522, R443: LAMP_GIVE_BACK: causes 8 and 9 clear; DIM_OUT goes back at once, DALI when no frame is on the bus, each
LPn at its next period boundary (Machine/Timers.lean) or at once if it is stopped. -/
def execLampGiveBack (s : State) : Out :=
  if ¬ (s.fw ∧ s.sac.mux.taken ∧ s.releaseHolds ∧ confReturnMs s.sac.conf ≤ s.sac.safety.releaseFor) then .next s
  else
    let s := (s.clearCause 8).clearCause 9
    let s := { s with
      pins := putBit s.pins 0 true
      sac := { s.sac with
        mux := { s.sac.mux with taken := false, sacDim := false, sacDali := s.dali.sacFrame.isSome }
        safety := { s.sac.safety with releaseFor := 0 } } }
    .next (((s.giveStopped).setLdrv).log .released 0)

/-- R465: VIGIL_DALI_REPEAT. -/
def execVigilDaliRepeat (s : State) : Out :=
  if s.sac.mux.taken ∧ s.sac.mux.sacDali ∧ s.sac.vigil.out.getLsbD 2 then
    .next { s with dali := { s.dali with sacFrame := some s.vigilFrame } }
  else .next s

/-- Change the supervision of string n. -/
def State.modStr (s : State) (n : Nat) (f : StringSup → StringSup) : State :=
  { s with sac := { s.sac with safety := { s.sac.safety with str := vmod s.sac.safety.str n f } } }

/-- R531, R536: OVERCURRENT_CUT; the third cut of a string within 60 s latches it off. -/
def execOvercurrentCut (n : Fin 2) (s : State) : Out :=
  if confIsnsMax s.sac.conf n.val = 0 ∨ confSupBit s.sac.conf 7 then .next s
  else
    let ms := s.sac.ms
    let s := s.modStr n.val (fun x =>
      let cs := (x.cuts.filter (fun t => decide (ms < t + 60000))) ++ [ms]
      { x with cut := true, cuts := cs, latched := x.latched || decide (cs.length ≥ 3) })
    .next (((s.setLdrv).sacEvent 3).log .overcurrent 3 n.val 0)

/-- R531: OVERCURRENT_CUT_RELEASE, 100 ms after the cut. -/
def execOvercurrentCutRelease (n : Fin 2) (s : State) : Out :=
  .next ((s.modStr n.val (fun x => if x.latched then x else { x with cut := false })).setLdrv)

/-! ## The schedule (R526) -/

/-- π × 10^12. -/
def piFx : Int := 3141592653590

/-- Terms of the Taylor series of sine: `acc + t − …`, in units of 10⁻¹². -/
def sinTerms (x2 : Int) : Nat → Nat → Int → Int → Int
  | 0, _, _, acc => acc
  | n + 1, k, t, acc =>
    let t' := - t * x2 / 1000000000000 / ((2 * k : Nat) * (2 * k + 1 : Nat))
    sinTerms x2 n (k + 1) t' (acc + t')

/-- The sine of an angle in millionths of a degree, in units of 10⁻¹² (DESIGN CHOICE, log 12: R526's algorithm in whole
numbers; R526 allows any within ±0.5°). -/
def sinFx (udeg : Int) : Int :=
  let a := (udeg % 360000000 + 360000000) % 360000000
  let a := if a > 180000000 then a - 360000000 else a
  let x := a * piFx / 180000000
  sinTerms (x * x / 1000000000000) 14 1 x x

/-- The cosine likewise. -/
def cosFx (udeg : Int) : Int := sinFx (udeg + 90000000)

/-- R526: the sine of the solar elevation in units of 10⁻¹², at town time t (ns) and a position in millionths of a
degree: sin(LAT) sin(dec) + cos(LAT) cos(dec) cos(h), with cos(dec) cos(h) written out over the longitude l and the
obliquity e. -/
def sinElevation (t : Nat) (lat lon : Int) : Int :=
  let day : Int := 86400000000000
  let d := (t : Int) + 631108800000000000
  let ang := fun (c0 : Int) (c1 : Int) (den : Int) => c0 + c1 * d / (day * den)
  let g := ang 357529000 98560028 100
  let q := ang 280459000 98564736 100
  let l := q + (1915000 * sinFx g + 20000 * sinFx (2 * g)) / 1000000000000
  let e := 23439000 - 36 * d / (day * 100)
  let th := 280460618 + 36098564736629 * d / (day * 100000) + lon
  let p := fun (a b : Int) => a * b / 1000000000000
  let sdec := p (sinFx e) (sinFx l)
  let cc := p (cosFx th) (cosFx l) + p (sinFx th) (p (cosFx e) (sinFx l))
  p (sinFx lat) sdec + p (cosFx lat) cc

/-- R526: SCHEDULE_VOTE. -/
def execScheduleVote (s : State) : Out :=
  if ¬ s.fw then .next s
  else
    let c := s.sac.conf
    let night :=
      if ¬ s.tt.sacSynced ∨ ¬ confSupBit c 6 then true
      else
        let e := sinElevation s.tt.sac.toNat (confLat c) (confLon c)
        if e < sinFx ((confElev c).1 * 10000) then true
        else if sinFx ((confElev c).2 * 10000) < e then false
        else s.sac.safety.schedNight
    .next { s with sac := { s.sac with safety := { s.sac.safety with schedNight := night } } }

/-- R533: LATENT_SELF_TEST: cause 14 while the last run has failed. -/
def execLatentSelfTest (pass : Bool) (s : State) : Out :=
  if ¬ s.fw then .next s
  else
    let s := { s with sac := { s.sac with safety := { s.sac.safety with testFailed := !pass } } }
    if pass then .next (s.clearCause 14)
    else .next (if bit s.sac.safety.causes 6 then s.log .selfTest 3 else s.raiseCause 14 .selfTest 3)

end Sys2Proof.Machine
end

