-- ==== Sys2Proof/Machine/Images.lean ====
section
/-!
DEFINITION. Sys2Proof/Machine/Images.lean: Glitil images in the flash slots: the header (R502), the check (R503), the
slot record (R505) and the choice of the image to start (R506). Kinds are numbered 0 (Sacristy firmware) and 1 (Nave
image) here. Whether a signature verifies comes with the command (log 13).
-/
namespace Sys2Proof.Machine

/-- R488: the aisle offset of the slot of a kind. -/
def slotBase (k : Nat) : Nat := if k = 0 then 0x10000 else 0x50000
/-- R502: the largest image of a kind in bytes (1 to 3 as in the header). -/
def imageLimit (kind : Nat) : Nat := if kind = 1 then 0x40000 else if kind = 2 then 0x400000 else 0x1000000

/-- The number of a slot in `Updates.slots`. -/
def slotNo (a k : Nat) : Nat := 2 * a + k
/-- An empty slot. -/
def ImgSlot.none : ImgSlot := { state := .empty, deadline := 0, seq := 0, version := 0, svn := 0 }
/-- The slot of a kind in an aisle. -/
def State.slot (s : State) (a k : Nat) : ImgSlot := vget s.sac.upd.slots (slotNo a k) ImgSlot.none

/-- The 512 header bytes of the image in a slot. -/
def State.imgHeader (s : State) (a k : Nat) : List Byte := ((s.aisle a).read (slotBase k) 512).getD []

/-- R503 order 2: the format of a header for a part. -/
def headerOk (v : Variant) (h : List Byte) : Bool :=
  let f := leField h
  let kind := f 5 1
  let len := f 0x14 4
  let vbit := match v with | .hkw910 => 0 | .hkw730 => 1 | .hkw530 => 2
  let isK := fun n => decide (kind = n)
  f 0 4 == 0x4C544C47 && f 4 1 == 1 && decide (1 ≤ kind ∧ kind ≤ 3) &&
  f 6 1 == (if kind = 1 then 0 else 1) && decide (f 7 1 ≤ (if kind = 2 then 1 else 0)) &&
  decide (f 8 4 < 8) && (f 8 4).testBit vbit && decide (f 0xC 2 ≤ 128) && f 0xE 2 == 0 &&
  (h.drop 0x98 |>.take 264).all (fun b => b == 0) &&
  (isK 1 || decide (f 0x20 4 < len)) && (!isK 1 || f 0x20 4 == 0) &&
  (if kind = 3 then decide (f 0x24 4 < len) else f 0x24 4 == 0) &&
  (if kind = 2 then f 0x18 8 % 4096 == 0 && f 0x28 8 % 4096 == 0 && decide (f 0x34 4 ≤ len)
   else f 0x18 8 == 0 && f 0x28 8 == 0 && f 0x30 4 == 0 && f 0x34 4 == 0 && (h.drop 0x68 |>.take 48).all (fun b => b == 0))

/-- R503 order 4: PAYLOAD_DIGEST of a header is the SHA-384 of a payload. -/
def digestOk (h payload : List Byte) : Bool := sha384 payload == (h.drop 0x38).take 48

/-- R503 orders 2 to 6: the reason with which the check of a header ends where a kind (1 to 3) is requested, 0 when it passes;
`sig`: order 4 passes. -/
def State.headerReason (s : State) (want : Nat) (h : List Byte) (sig : Bool) : Nat :=
  let kind := leField h 5 1
  if ¬ headerOk s.chip.variant h then 2
  else if imageLimit kind < 512 + leField h 0x14 4 then 5
  else if ¬ sig then 3
  else if leField h 0xC 2 < (if kind = 1 then s.sac.upd.f0 else s.sac.upd.f1) then 4
  else if kind ≠ want then (if want = 3 then 6 else 2)
  else 0

/-- R503: the reason with which the check of the image in a slot ends, 0 when it passes; `readable` and `sig`: its bytes could be
read and SIG verifies, as far as the command says. -/
def State.imageReason (s : State) (a k : Nat) (readable sig : Bool) : Nat :=
  let h := s.imgHeader a k
  let len := leField h 0x14 4
  let w0 := slotBase k / 32
  let w1 := (slotBase k + min (512 + len) (imageLimit (k + 1)) + 31) / 32
  let bad := (s.aisle a).words.any (fun p => decide (w0 ≤ p.1 ∧ p.1 < w1) && p.2 == .uncorrectable)
  if ¬ readable ∨ h = [] ∨ bad then 1
  else s.headerReason (k + 1) h (sig && digestOk h (((s.aisle a).read (slotBase k + 512) len).getD []))

/-- The number of a slot state (R505). -/
def ImgState.code : ImgState → Nat
  | .empty => 0
  | .staged => 1
  | .trial => 2
  | .trying => 3
  | .confirmed => 4
  | .failed => 5

/-- R505: the slot-record word for a slot. -/
def slotWord (k : Nat) (x : ImgSlot) (digest : List Byte) : BitVec 256 :=
  let b := toBytes 4 0x544F4C53 ++ [BitVec.ofNat 8 (k + 1), BitVec.ofNat 8 x.state.code] ++ toBytes 2 x.deadline ++
    toBytes 4 x.seq ++ toBytes 4 x.version.toNat ++ toBytes 2 x.svn ++ digest
  BitVec.ofNat 256 (ofBytes (b ++ toBytes 4 (crc32 b).toNat))

/-- R505: the slot-record words of a kind. -/
def isSlotWord (k : Nat) (w : FlashWord) : Bool :=
  match w with
  | .programmed d => leField (wordBytes d) 4 1 == k + 1
  | _ => false

/-- R487, R510: the words of a kind are withdrawn from sector 0 by ZERO. -/
def FlashAisle.withdraw (f : FlashAisle) (k : Nat) : FlashAisle :=
  (f.words.filter (fun p => p.1 / 128 = 0 && isSlotWord k p.2)).foldl (fun f p => f.zero p.1) f

/-- R487, R510: a staging begins in a slot: a STAGED image that stood there is withdrawn, so that nothing selects a slot that is
half written (DEDUCED, log 18). -/
def State.withdrawStaged (s : State) (a k : Nat) : State :=
  if (s.slot a k).state = .staged then
    let s := s.modAisle a (fun f => f.withdraw k)
    { s with sac := { s.sac with upd := { s.sac.upd with slots := vset s.sac.upd.slots (slotNo a k) ImgSlot.none } } }
  else s

/-- R505: a new slot-record word is appended; a full sector 0 is compacted to one word per kind by the rewrite of R497. -/
def State.setSlot (s : State) (a k : Nat) (st : ImgState) (deadline : Nat := 0) : State :=
  let h := s.imgHeader a k
  let seq := (s.sac.upd.slots.toList.foldl (fun m x => max m x.seq) 0) + 1
  let x : ImgSlot := { state := st, deadline := deadline, seq := seq, version := BitVec.ofNat 32 (leField h 0x10 4), svn := leField h 0xC 2 }
  let dig := fun k' => (((s.imgHeader a k').drop 0x38).take 10 ++ List.replicate 10 0).take 10
  let w := slotWord k x (dig k)
  let s := match (s.aisle a).firstErased 0 128 with
    | some i => s.modAisle a (fun f => f.prog i w)
    | none =>
      let y := s.slot a (1 - k)
      s.rewriteFrom a 0 ((0, FlashWord.programmed w) :: (if y.state = ImgState.empty then [] else [(1, FlashWord.programmed (slotWord (1 - k) y (dig (1 - k))))]))
  { s with sac := { s.sac with upd := { s.sac.upd with slots := vset s.sac.upd.slots (slotNo a k) x } } }

/-- R506: slots in a state are checked; one that fails is written FAILED with a record. -/
def State.sieve (s : State) (k : Nat) (st : ImgState) (sig : BitVec 2) : State :=
  [0, 1].foldl (fun s a =>
    if (s.slot a k).state = st ∧ s.imageReason a k true (bit sig a) ≠ 0 then (s.setSlot a k .failed).log .imageFailed 2 a
    else s) s

/-- R506: the image of a kind that starts, and the slot records that the choice writes. -/
def State.chooseImage (s : State) (k : Nat) (sig : BitVec 2) : Option Aisle × State :=
  let s := [0, 1].foldl (fun s a => if (s.slot a k).state = .trying then s.setSlot a k .failed else s) s
  let s := s.sieve k .trial sig
  match ([0, 1] : List (Fin 2)).find? (fun a => (s.slot a.val k).state == .trial) with
  | some a => (some a, s.setSlot a.val k .trying)
  | none =>
    let s := s.sieve k .confirmed sig
    let c := ([0, 1] : List (Fin 2)).filter (fun a => (s.slot a.val k).state == .confirmed)
    match c with
    | [] => (none, s)
    | [a] => (some a, s)
    | a :: b :: _ => (some (if (s.slot a.val k).seq < (s.slot b.val k).seq then b else a), s)

/-- The aisle of the running image of a kind. -/
def State.runningImg (s : State) (k : Nat) : Option Aisle := vget s.sac.upd.running k none
/-- Record the aisle of the running image of a kind. -/
def State.setRunning (s : State) (k : Nat) (a : Option Aisle) : State :=
  { s with sac := { s.sac with upd := { s.sac.upd with running := vset s.sac.upd.running k a } } }

/-- R506: the aisle that does not hold the slot now running (South when none runs from North, North otherwise). -/
def State.inactive (s : State) (k : Nat) : Nat :=
  match s.runningImg k with
  | some a => 1 - a.val
  | none => 0

/-- R104, R452: the causes of the Sacristy resets that have passed are recorded as the firmware runs again. -/
def State.sacRecord (s : State) : State :=
  if s.power.sacCauses = 0 then s
  else
    let s := s.log .sacReset 1 s.power.sacCauses.toNat
    { s with power := { s.power with sacCauses := 0 } }

/-- Step 6: the firmware is chosen and runs; a live exchange left TRYING gets its deadline again (R511), records are written for
the causes of Sacristy resets (R104, R452) and for a lamp without supervised string (R529), and the heartbeat is armed again as
at a start (R474). -/
def State.startFirmware (s : State) (sig : BitVec 2) : State :=
  let (a, s) := s.chooseImage 0 sig
  let s := s.setRunning 0 a
  match a with
  | none => { s with power := { s.power with sacPhase := .armed, admitPaused := true } }
  | some _ =>
    let dl := match s.runningImg 1 with
      | some b => let x := s.slot b.val 1; if x.state = .trying ∧ x.deadline ≠ 0 then some x.deadline else none
      | none => none
    let s := { s with
      power := { s.power with sacPhase := .running, admitPaused := false }
      sac := { s.sac with
        upd := { s.sac.upd with deadline := dl }
        hb := { s.sac.hb with grace := s.naveRuns } } }
    let s : State := s.sacRecord
    let s := if s.supervised 0 ∨ s.supervised 1 then s else s.log .noString 1
    if s.power.navePhase = .base ∨ s.power.navePhase = .running then s.unitUp 20 else s

end Sys2Proof.Machine
end

