-- ==== Sys2Proof/Machine/Power.lean ====
section
/-!
DEFINITION. Sys2Proof/Machine/Power.lean: supply, cold start, the ledger, admission of units, parking, clocks and resets
(R51 to R55, R68 to R94, R101 to R105, R314, R317, R452, R453, R507).
-/
namespace Sys2Proof.Machine

/-! ## The ledger (R75 to R80) -/

/-- R75: running allowance and start extra of a unit in 10 mW. -/
def allowance (u : Nat) : Nat × Nat :=
  if u < 4 then (190, 100)
  else if u < 8 then (110, 80)
  else if u < 12 then (50, 30)
  else if u = 12 then (200, 100)
  else if u = 13 then (100, 50)
  else if u = 14 ∨ u = 15 then (150, 100)
  else if u = 17 then (10, 10)
  else if u = 19 then (120, 50)
  else if u = 21 then (20, 10)
  else (0, 0)

/-- R75: running allowance and start extra of the Nave base, whose units have no place of their own. -/
def baseAllowance : Nat × Nat := (160, 150)

/-- R76: USED in 10 mW. The Nave base starts and becomes ready within one step (step 10), so that its start extra counts for
its admission alone. -/
def State.used (s : State) : Nat :=
  80 + (if s.naveUp then baseAllowance.1 else 0) +
  (List.range 23).foldl (fun n u => if bit s.power.started u then n + (allowance u).1 else n) 0 +
  (match s.power.starting with | some u => (allowance u.val).2 | none => 0)

/-- R76: the ledger budget in 10 mW, as the last evaluation left it. -/
def State.ledgerBudget (s : State) : Nat := s.power.budget

/-- The start order of the table "Cold start sequence" after the Nave base (R81 steps 11 to 19). -/
def startOrder : List (Fin 23) := [0, 14, 15, 1, 2, 3, 17, 21, 19, 4, 5, 6, 7, 8, 9, 10, 11, 13, 12]

/-- R85: derating holds a unit off (tenant lanes and the Clerestory at D3). -/
def State.heldOff (s : State) (u : Nat) : Bool := s.sac.derate.level == 3 && (decide (8 ≤ u ∧ u < 12) || u == 12)

/-- R77, R85: a unit still waits in the start order. -/
def State.inOrder (s : State) (u : Nat) : Bool :=
  bit s.power.toStart u && s.hasUnit u && !s.flag aPark u && !bit s.power.outUntilStart u && !s.heldOff u

/-- R77: the next unit to be admitted. -/
def State.nextUnit (s : State) : Option (Fin 23) := startOrder.find? (fun u => s.inOrder u.val)

/-- R77, R80: an allowance fits the budget beside USED. -/
def State.fitsIn (s : State) (x : Nat × Nat) : Bool := decide (s.used + x.1 + x.2 ≤ s.ledgerBudget)

/-- R77: the allowance of a unit fits the budget. -/
def State.fits (s : State) (u : Nat) : Bool := s.fitsIn (allowance u)

/-- R77, R103: nothing but the budget stands against an admission: no unit is in its start phase, and no Sacristy reset pauses
the ledger. -/
def State.admits (s : State) : Bool := s.power.starting.isNone && !s.power.admitPaused

/-- R287: n bytes from an address lie wholly in Close SRAM or in the ranges of READY channels. -/
def State.inFitted (s : State) (base len : Nat) : Bool :=
  decide (0x10000000 ≤ base ∧ base + len ≤ 0x10200000) ||
  (let r := fun c => ((s.pair (aChBase c)).toNat, (s.pair (aChSize c)).toNat, s.unitReady (14 + c))
   let inR := fun (x : Nat × Nat × Bool) => x.2.2 && decide (x.1 ≤ base ∧ base + len ≤ x.1 + x.2.1)
   let (b0, n0, r0) := r 0
   let (b1, n1, r1) := r 1
   inR (r 0) || inR (r 1) || (r0 && r1 && b0 + n0 == b1 && decide (b0 ≤ base ∧ base + len ≤ b1 + n1)))

/-- R86, R287: rule 31 is sealed and its range lies in fitted memory. -/
def State.sealedOk (s : State) : Bool :=
  s.flag (aScrAttr 31) 9 &&
  s.inFitted ((s.reg (aScrBase 31)).toNat * 4096) (((s.reg (aScrLimit 31)).toNat + 1 - (s.reg (aScrBase 31)).toNat) * 4096)

/-- R85: a unit whose turn has not come and that will not be passed over: of those still in the order all but a Clerestory
whose rule 31 is not sealed or whose range fails R287. -/
def State.willStart (s : State) (u : Nat) : Bool := s.inOrder u && (u != 12 || s.sealedOk)

/-- R77: SYSCTL_LEDGER_WAIT: when the next unit is not admitted, it and every unit after it wait. -/
def State.waitBits (s : State) : Nat :=
  let us := startOrder.filter (fun u => s.willStart u.val)
  match us.head? with
  | some u => if s.admits ∧ s.fits u.val then 0 else us.foldl (fun n v => n + 2 ^ v.val) 0
  | none => 0

/-- R76: LEDGER_EVALUATION, every 100 µs: the lower of the configured budget and VIN × 6.0 A × 0.85, in 10 mW. -/
def execLedgerEvaluation (vinMv : Nat) (s : State) : Out :=
  let s := { s with power := { s.power with vinMv := vinMv, budget := min s.sac.budget (vinMv * 51 / 100) } }
  .next (s.setReg aLedger (BitVec.ofNat 32 (min s.ledgerBudget 65535 * 65536 + min s.used 65535)))

/-- R312: a device within the limits. -/
def dramOk (d : DramDevice) : Bool := d.widthOk && decide (d.dens.toNat ≤ 3) && (d.ranks == 1 || d.ranks == 2)

/-- R316: the addressable bytes of a channel: 123/128 of its capacity. -/
def dramSize (d : DramDevice) : Nat := 2 ^ d.dens.toNat * 0x40000000 / 128 * 123

/-- R317: the sizes that devices give, as the mode registers of both channels report them. -/
def State.chSizes (s : State) : Nat × Nat :=
  let sz := fun (d : Option DramDevice) (present : Bool) => match d with
    | some d => if dramOk d && present then dramSize d else 0
    | none => 0
  (sz s.chip.dram[0] (s.hasUnit 14), sz s.chip.dram[1] (s.hasUnit 15))

/-- R317: the DRAM map, fixed at step 12 from what both channels' mode registers report. -/
def State.fixMap (s : State) : State :=
  if s.mem.mapFixed then s
  else
    let n := s.chSizes
    let s := { s with mem := { s.mem with
      mapFixed := true
      chan := #v[{ (s.mem.chan[0]) with dev := s.chip.dram[0] }, { (s.mem.chan[1]) with dev := s.chip.dram[1] }] } }
    let s := s.setPair (aChBase 0) (if n.1 = 0 then 0 else BitVec.ofNat 64 aDram)
    let s := s.setPair (aChSize 0) (BitVec.ofNat 64 n.1)
    let s := s.setPair (aChBase 1) (if n.2 = 0 then 0 else BitVec.ofNat 64 (aDram + n.1))
    s.setPair (aChSize 1) (BitVec.ofNat 64 n.2)

/-- A unit enters its start phase (R77): a lane trains (R328); the training step of a memory channel begins (R314), with the
DRAM map fixed at the first (R317) and DDRc_RESET_N raised, since the DRAM rails are in range (R74). -/
def State.admitUnit (s : State) (u : Fin 23) : State :=
  let s := { s with power := { s.power with starting := some u, started := putBit s.power.started u.val true,
                                            toStart := putBit s.power.toStart u.val false } }
  let train := fun (l : Lane) => { l with state := .training, txInv := s.flag (aLane (u.val - 4) 0) 4 }
  if 4 ≤ u.val ∧ u.val < 8 then
    if s.field (aLane (u.val - 4) 0) 1 0 = 0 then s else { s with ring := { s.ring with lanes := vmod s.ring.lanes (u.val - 4) train } }
  else if u = 14 ∨ u = 15 then
    let s := s.fixMap
    let start := fun (c : Chan) => { c with state := .training }
    { s with mem := { s.mem with chan := vmod s.mem.chan (u.val - 14) start }
             power := { s.power with ddrResetN := putBit s.power.ddrResetN (u.val - 14) true } }
  else s

/-- R78: START_PHASE_END: 250 µs for a lane, else the rise of READY. -/
def execStartPhaseEnd (s : State) : Out :=
  match s.power.starting with
  | none => .next s
  | some u =>
    if (4 ≤ u.val ∧ u.val < 12) ∨ s.unitReady u.val then .next { s with power := { s.power with starting := none } }
    else .next s

/-- A unit holds no allowance any more (R78, R105). -/
def State.release (s : State) (u : Nat) : State :=
  { s with power := { s.power with started := putBit s.power.started u false,
                                   starting := if s.power.starting.any (fun v => v.val == u) then none else s.power.starting } }

/-- R78: UNIT_START_TIMEOUT; an LPDDR channel with no device writes no record, a ring lane has no maximum. -/
def execUnitStartTimeout (u : UnitBit) (s : State) : Out :=
  if ¬ bit s.power.started u.val ∨ s.unitReady u.val ∨ (4 ≤ u.val ∧ u.val < 8) then .next s
  else
    let s := s.release u.val
    let s := { s with power := { s.power with outUntilStart := putBit s.power.outUntilStart u.val true } }
    let noDev := (u = 14 ∧ (s.mem.chan[0]).state = .none) ∨ (u = 15 ∧ (s.mem.chan[1]).state = .none)
    .next (if noDev then s else s.log .startTimeout 1 u.val)

/-- R147: the stalls of a core as it starts: the state in which a Nave reset leaves them. -/
def State.coreStart (s : State) (u : Nat) : State :=
  { s with
    stalls := Vector.ofFn (fun (i : Fin 33) => if i.val / 8 = u ∧ i.val < 32 then (if i.val = 0 then Stall.boot else Stall.init) else s.stall i.val)
    cores := vset s.cores u Core.init }

/-! ## The Nave's start (R81 steps 7 to 11, R99, R144, R507) -/

/-- R484, R590: the debug gate for a life-cycle state: OPEN, SCAN, ENCL and the state's number. -/
def LifeCycle.gate (l : LifeCycle) : BitVec 32 :=
  BitVec.ofNat 32 (256 * l.code + match l with | .manufacture => 7 | .fieldOpenDebug => 3 | _ => 0)

/-- R287: rule 31 from the image's range: sealed and locked when the range is wholly in Close SRAM or the DRAM window. -/
def State.sealRule (s : State) (base mib : Nat) : State :=
  let len := mib * 0x100000
  if mib = 0 then s
  else if (0x10000000 ≤ base ∧ base + len ≤ 0x10200000) ∨ (aDram ≤ base ∧ base + len ≤ (aDram + 0x400000000)) then
    ((s.setReg (aScrBase 31) (BitVec.ofNat 32 (base / 4096))).setReg (aScrLimit 31) (BitVec.ofNat 32 ((base + len) / 4096 - 1))).setReg
      (aScrAttr 31) 0x10300
  else s.log .sealedRange 1

/-- Step 10: the Nave base starts: Screen, Hatch, debug and Close SRAM (cleared); the Sacristy loads town time, the grant
epoch, the reset causes, AUTH, rule 31, the boot descriptor and the debug gate before NC0 leaves reset. -/
def State.baseStart (s : State) : State :=
  let c := s.power.nextCauses
  let starts := satInc s.power.starts
  let d3 := s.sac.derate.startAtD3
  let up3 := d3 && s.sac.derate.level != 3
  let s := { s with
    power := { s.power with navePhase := .base, starts := starts, nextCauses := 0
                            toStart := s.chip.variant.present &&& 0x2AFFFF#23 }
    sac := { s.sac with
      epochs := s.sac.epochs + 1, naveStarts := s.sac.naveStarts + 1
      derate := if d3 then
          { s.sac.derate with startAtD3 := false, thermal := 3, level := 3, clocks := 3, vdd := 3, vddTo := none, coolFor := 0 }
        else { s.sac.derate with clocks := s.sac.derate.level, vdd := s.sac.derate.level, vddTo := none }
      upd := { s.sac.upd with startedOnce := true } }
    tt := { s.tt with now := if s.tt.sacSynced then s.tt.sac else 0 }
    dbg := { s.dbg with gate := s.sac.life.gate } }
  let s := s.writeCounters
  let s := if s.tt.sacSynced then s.setReg aTtStatus 0x8 else s
  let s := s.setReg aCause (BitVec.ofNat 32 ((s.reg aCause).toNat / 4096 % 2 * 4096 + starts.toNat * 65536 + c.toNat))
  let s := s.setReg (aRing 0x10C) (BitVec.ofNat 32 (s.sac.epochs % 256))
  let s := match s.runningImg 1, s.sac.upd.recovery with
    | some a, false =>
      let h := s.imgHeader a.val 1
      let s := if leField h 7 1 % 2 = 1 then s.orReg aEncCtrl 2 else s
      let s := s.sealRule (leField h 0x28 8) (leField h 0x30 4)
      let pa := 0x31000000 + 0x800000 * a.val + slotBase 1 + 512
      s.winWrite 0xFB00 (toBytes 8 pa ++ toBytes 4 (leField h 0x14 4) ++ toBytes 4 (leField h 0x20 4) ++
        toBytes 8 (leField h 0x18 8) ++ List.replicate 40 0)
    | _, _ => s
  let s := s.log .naveStart 0 c.toNat
  let s := (((s.unitUp 18).unitUp 22).unitUp 16)
  let s := if s.fw then s.unitUp 20 else s
  if up3 then
    let s := (s.log .derateLevel 0 3).raise 50
    if s.fw then s.telemetry else s
  else s

/-- R77, R81: step 10 takes place once the ledger admits the Nave base; until then the base and all that follows it wait. -/
def State.tryBase (s : State) : State := if s.admits ∧ s.fitsIn baseAllowance then s.baseStart else s

/-- R42, R55, R102: EXT_RST_N holds the Nave die in reset: it is low, and bank D is powered, so that it is seen. -/
def State.extHolds (s : State) : Bool := s.bankUp 3 && !s.power.extRstN

/-- Step 7 may begin: the firmware runs, the reference is good, EXT_RST_N does not hold the die (R42, R102), no thermal
shutdown holds it. -/
def State.mayStart (s : State) : Bool :=
  s.power.navePhase == .down && s.fw && s.power.refGood && !s.extHolds && !s.sac.derate.shutdown &&
    s.sac.life != .decommissioned

/-- R84, R506, R514: NAVE_IMAGE_VERIFIED: step 7; with the rails up step 10 follows. -/
def execNaveImageVerified (sig : BitVec 2) (s : State) : Out :=
  if ¬ s.mayStart ∨ (s.straps.bootsel = 1 ∧ s.sac.upd.waitActivate) then .next s
  else
    let go := fun (s : State) =>
      let s := { s with power := { s.power with navePhase := .verified } }
      if s.power.railsUp then s.tryBase else s
    if s.straps.bootsel = 2 ∧ ¬ s.sac.upd.startedOnce then
      .next (go { s with sac := { s.sac with upd := { s.sac.upd with recovery := true } } })
    else
      let (a, s) := s.chooseImage 1 sig
      let s := s.setRunning 1 a
      match a with
      | none => .next s
      | some _ => .next (go s)

/-- R69, R88, R93: nothing keeps the Nave rails down: VIN is out of brown-out, no power cycle or undervoltage waits, and the
reference is good. -/
def State.railsMay (s : State) : Bool :=
  !s.power.boWait && !s.power.brownOut && !s.power.uvWait && !s.power.cycleWait && s.power.refGood

/-- R44: the number of a bank voltage in its record. -/
def bankCode : BankVolt → Nat
  | .openBank => 0
  | .v18 => 1
  | .v33 => 2

/-- R44: the four bank voltages as one number, bank A lowest, two bits each (log 47). -/
def banksCode (v : Vector BankVolt 4) : Nat := bankCode v[0] + 4 * bankCode v[1] + 16 * bankCode v[2] + 64 * bankCode v[3]

/-- R74: the Nave rails rise, each once the one before is in range. -/
def State.railsRise (s : State) : State :=
  naveRails.foldl (fun s r => { s with power := { s.power with rails := s.power.rails ++ [r] } })
    { s with power := { s.power with rails := [] } }

/-- R69, R74, R44: NAVE_RAILS_UP: steps 8 and 9, then step 10; with bank D powered, an EXT_RST_N that is low is now seen and
holds the die in reset (R42, R102). -/
def execNaveRailsUp (a b c d : BankVolt) (s : State) : Out :=
  if s.power.navePhase ≠ .verified ∨ s.power.railsUp ∨ ¬ s.railsMay then .next s
  else
    let v := #v[a, b, c, d]
    let s := { s.railsRise with power := { s.railsRise.power with banks := v } }
    let s := s.log .bankVolts 0 (banksCode v)
    .next (if s.extHolds then s.requestNaveReset 1 else s.tryBase)

/-- R77, R81: UNIT_ADMITTED: the next of the start order is admitted if the budget has room for it: the Nave base once the
image is verified and the rails are up, then the units. A Clerestory without its sealed range is passed over for this start
(R85). -/
def execUnitAdmitted (s : State) : Out :=
  if ¬ s.admits then .next s
  else if s.power.navePhase = .verified ∧ s.power.railsUp then .next s.tryBase
  else if ¬ s.naveUp then .next s
  else match s.nextUnit with
    | none => .next s
    | some u =>
      if u = 12 ∧ ¬ s.sealedOk then
        .next { s with power := { s.power with toStart := putBit s.power.toStart 12 false,
                                               outUntilStart := putBit s.power.outUntilStart 12 true } }
      else .next (if s.fits u.val then s.admitUnit u else s)

/-- R81 step 11, R56, R77, R83, R109, R147, R474, R508: NC0_LEAVES_RESET: NC0, the first unit in the start order, is admitted
if it has not been, and runs its first boot ROM instruction. -/
def execNc0LeavesReset (s : State) : Out :=
  if s.power.navePhase ≠ .base ∨ s.extHolds ∨ ¬ (s.power.starting = some 0 ∨ (s.admits ∧ s.fits 0)) then .next s
  else
    let s := s.coreStart 0
    let s := { s with
      power := { s.power with navePhase := .running, starting := none
                              booting := (s.runningImg 1).isSome && !s.sac.upd.recovery
                              started := putBit s.power.started 0 true
                              toStart := putBit s.power.toStart 0 false }
      pins := putBit s.pins 1 true
      sac := { s.sac with hb := { s.sac.hb with grace := true, armed := false, missed := 0 } } }
    .next ((s.clearCause 16).unitUp 0)

/-- R69, R88, R549: NAVE_RAIL_RESTART: the off time and the conditions on VIN and the reference have been met. -/
def execNaveRailRestart (s : State) : Out :=
  if s.power.boWait ∨ s.power.brownOut ∨ ¬ s.power.refGood ∨ s.sac.derate.shutdown then .next s
  else .next { s with power := { s.power with cycleWait := false, uvWait := false } }

/-! ## VIN, rails, references (R55, R68, R73, R93, R94) -/

/-- R55, R42: EXT_RST_N_ASSERT: under 100 ns ignored, 1 µs or longer taken, between the two a free choice; while bank D is
unpowered the level is not seen. -/
def execExtRstNAssert (ns : Nat) (s : State) : Out :=
  if ns < 100 then .next s
  else
    let (b, s) := if ns < 1000 then s.drawBool else (true, s)
    if ¬ b then .next s
    else
      let s := { s with power := { s.power with extRstN := false } }
      .next (if s.bankUp 3 then s.requestNaveReset 1 else s)

/-- R102: EXT_RST_N_RELEASE. -/
def execExtRstNRelease (s : State) : Out := .next { s with power := { s.power with extRstN := true } }

/-- R68: VIN_POR. -/
def execVinPor (s : State) : Out := .next (s.powerOnReset true)

/-- R68, R72: VIN_ON; VPRE is up since VIN passed VIN_POR. -/
def execVinOn (s : State) : Out := .next { s with power := { s.power with vinOn := true, vpre := true } }

/-- R68: VIN_BO: brown-out begins. -/
def execVinBo (s : State) : Out := .next (({ s with power := { s.power with brownOut := true } }).sacEvent 2)

/-- R68, R69: VIN_BO_CLR: VIN is out of brown-out. -/
def execVinBoClr (s : State) : Out := .next (({ s with power := { s.power with brownOut := false, boWait := false } }).sacEvent 2)

/-- R68, R69, R530: VIN_UV: a Nave power cycle, recorded with severity 3. -/
def execVinUv (s : State) : Out :=
  let s := s.powerCycle 9
  .next (((({ s with power := { s.power with uvWait := true } }).setLdrv).sacEvent 2).log .undervolt 3 0 0)

/-- R73, R74: the Nave rails are up, or rise. -/
def State.railsOn (s : State) : Bool := s.power.railsUp || (s.power.navePhase == .verified && s.railsMay)

/-- R73, R530: RAIL_OUT_OF_RANGE: a VSAC rail causes a power-on reset, a Nave rail that is up or rises a Nave power cycle; for
VPRE and STRAP_HI the spec names no reset. -/
def execRailOutOfRange (r : Rail) (s : State) : Out :=
  if r = .vsacCore ∨ r = .vsacIo then .next (s.powerOnReset false)
  else if naveRails.contains r ∧ s.railsOn then .next ((((s.powerCycle 10).setLdrv).sacEvent 2).log .rail 3 0 0)
  else .next s

/-- R93: REFERENCE_LOST. -/
def execReferenceLost (s : State) : Out :=
  let s := { s with power := { s.power with refGood := false, refJudged := true } }
  let s := if s.railsOn then s.powerCycle 11 else { s with power := { s.power with nextCauses := putBit s.power.nextCauses 11 true } }
  .next ((s.setLdrv).log .refLost 2 0 0)

/-- R93: REFERENCE_RESTORED. -/
def execReferenceRestored (s : State) : Out := .next { s with power := { s.power with refGood := true, refJudged := true } }

/-- A lane is in service. -/
def State.laneUp (s : State) (n : Nat) : Bool := (vget s.ring.lanes n Lane.init).state == .inService

/-- R31, R343: a port has failed while no lane of it is in service; the east port has lanes 0 and 2, the west port 1 and 3. -/
def State.portsNow (s : State) : State :=
  let f := fun (p : Nat) (x : RPort) =>
    let up := s.laneUp p || s.laneUp (p + 2)
    { x with failed := !up, upSince := if up && x.failed then s.tmr.cycles else x.upSince }
  { s with ring := { s.ring with ports := vmod (vmod s.ring.ports 0 (f 0)) 1 (f 1) } }

/-- Change a lane. -/
def State.modLane (s : State) (n : Nat) (f : Lane → Lane) : State := { s with ring := { s.ring with lanes := vmod s.ring.lanes n f } }
/-- Change a port. -/
def State.modPort (s : State) (p : Nat) (f : RPort → RPort) : State := { s with ring := { s.ring with ports := vmod s.ring.ports p f } }

/-- R323, R328: a lane begins to train, with the polarity that TXINV gives. -/
def State.trainLane (s : State) (n : Nat) : State :=
  s.modLane n (fun l => { l with state := .training, txInv := s.flag (aLane n 0) 4 })

/-- A ring lane leaves service (R94, R343): its READY bit falls and it waits to train, or trains. -/
def State.laneDown (s : State) (n : Nat) (st : LaneState) : State :=
  let s := s.modLane n (fun l => { l with state := st, rate := 0 })
  ((if st = LaneState.training then s.trainLane n else s).unitDown (4 + n)).portsNow

/-- R320: a lane is in service at both ends of its span: the other end sends no RF. -/
def State.laneBoth (s : State) (n : Nat) : Bool := s.laneUp n && (vget s.ring.lanes n Lane.init).rfRun == 0

/-- R320: both lanes of a port are in service at both ends. -/
def State.bonded (s : State) (p : Nat) : Bool := s.laneBoth p && s.laneBoth (p + 2)

/-- R347: a lane must retrain under traffic: of a bonded port this lane alone stops; another port sets RETRAIN and folds at its next
marker. -/
def State.planRetrain (s : State) (n : Nat) : State :=
  if ¬ s.laneUp n then s
  else if s.bonded (n % 2) then s.laneDown n .training
  else (s.modLane n (fun l => { l with txRetrain := true })).modPort (n % 2) (fun p => { p with planned := true })

/-- R482, R327: MANUFACTURE_TO_FIELD: from then on link protection is on, and a lane that runs without it trains again. -/
def execManufactureToField (s : State) : Out :=
  if s.sac.life = .manufacture then
    let s := (({ s with sac := { s.sac with life := .field } }).log .lifeCycle 1 1)
    .next ((List.range 4).foldl (fun s n =>
      if s.laneUp n ∧ ¬ (vget s.ring.lanes n Lane.init).prot then s.laneDown n .training else s) s)
  else .next s

/-- R94, R375: SREFCLK_LOST: lanes leave service; the PCS of a tenant port stops, and has no lock when it runs again. -/
def execSrefclkLost (s : State) : Out :=
  let s := { s with power := { s.power with srefGood := false } }
  let s := (List.range 4).foldl (fun s n => if (vget s.ring.lanes n Lane.init).state = .inService then s.laneDown n .waiting else s) s
  let s := { s with tp := s.tp.map (fun t => { t with block := false, fecLock := false }) }
  .next ((List.range 4).foldl (fun s n => s.unitDown (8 + n)) s)

/-- R94: SREFCLK_RECOVERY: ring lanes train again; a tenant lane's READY bit rises by UNIT_READY_RISE. -/
def execSrefclkRecovery (s : State) : Out :=
  let s := { s with power := { s.power with srefGood := true } }
  .next ((List.range 4).foldl (fun s n => if (vget s.ring.lanes n Lane.init).state = .waiting then s.trainLane n else s) s)

/-! ## Cold start of the Sacristy (R51 to R54, R81 steps 3 to 6, R104, R483) -/

/-- The Sacristy core as it begins to run (DESIGN CHOICE, log 14: it starts from a root at cursor 0 of its ROM). -/
def Stall.sacStart : Stall := Stall.boot

/-- R18, R54, R53, R482: what the Sacristy records of the straps it has sampled. -/
def State.strapRecords (s : State) : State :=
  let s := if s.straps.role ∧ ¬ s.gateway then s.log .roleRefused 1 else s
  let s := if ¬ s.straps.testenN ∧ s.sac.life ≠ .manufacture then s.log .testenLow 1 else s
  let s := if s.straps.bootsel = 3 then s.log .bootselReserved 1 else s
  if s.sac.life = .decommissioned then s.raiseCause 17 .taken 1 else s

/-- R51, R54, R81 step 3, R489, R497: POWER_ON_RESET_RELEASE. -/
def execPowerOnResetRelease (bootsel : BitVec 2) (role testenN : Bool) (s : State) : Out :=
  if s.power.sacPhase ≠ .porHeld ∨ ¬ s.power.vinOn then .next s
  else
    let s := { s with
      straps := { bootsel := bootsel, role := role, testenN := testenN }
      power := { s.power with sacPhase := .rom }
      sac := { s.sac with testAccess := !testenN && s.sac.life == LifeCycle.manufacture }
      stalls := vset s.stalls 32 Stall.sacStart }
    let s := if s.sac.zeroising then s.zeroiseKeys else s
    let s := { s with ring := { s.ring with node := if s.gateway then some 0 else none } }
    let s := s.scrubResume
    let (found, s) := s.loadCounters
    let s := s.writeCounters
    let s := if found then s else s.log .countersInvalid 1
    let s := s.log .powerOn 0 (s.sac.powerons.toNat + 65536 * s.power.porCauses.toNat)
    .next s.strapRecords

/-- R81 step 4, R93: SACRISTY_SELF_TEST_DONE. -/
def execSacristySelfTestDone (crystal : Bool) (s : State) : Out :=
  if s.power.sacPhase ≠ .rom then .next s
  else
    let s := { s with power := { s.power with sacPhase := .tested, refGood := crystal, refJudged := true } }
    .next (if crystal then s else s.log .refLost 2 0 0)

/-- R82, R464, R525: VIGIL_PATH_ARMED: step 5. -/
def execVigilPathArmed (pdMv : Nat) (s : State) : Out :=
  if s.power.sacPhase ≠ .tested then .next s
  else
    let s := (s.confLoad).vigilLoad
    let c := s.sac.conf
    let night := !confSupBit c 5 || decide (pdMv ≤ (confPd c).2)
    let s := { s with
      power := { s.power with sacPhase := .armed, vigilArmed := true }
      sac := { s.sac with safety := { s.sac.safety with pdNight := night } }
      dali := { s.dali with sacFrame := if s.sac.vigil.out.getLsbD 2 then some s.vigilFrame else none } }
    .next s.setLdrv

/-- R81 step 6, R506: SACRISTY_FIRMWARE_VERIFIED. -/
def execSacristyFirmwareVerified (sig : BitVec 2) (s : State) : Out :=
  if s.power.sacPhase = .armed then .next (s.startFirmware sig) else .next s

/-! ## Sacristy resets (R103, R452, R453) -/

/-- R452, R530: LOCKSTEP_MISMATCH. -/
def execLockstepMismatch (s : State) : Out :=
  if s.power.sacPhase = .porHeld then .next s else .next (s.sacReset 0).setLdrv

/-- R453: WATCHDOG_EXPIRY. -/
def execWatchdogExpiry (_outOfOrder : Bool) (s : State) : Out :=
  if s.power.sacPhase = .porHeld then .next s else .next (s.sacReset 1).setLdrv

/-- R453: WATCHDOG_RESTART: the first value, then the second, restart the timer; a value out of order is a Sacristy
reset. The two values are not given (log 10). -/
def execWatchdogRestart (value : BitVec 32) (s : State) : Out :=
  if s.power.sacPhase = .porHeld ∨ s.power.sacPhase = .inReset then .next s
  else
    let want := if s.sac.wdFirst then Config.watchdogSecond else Config.watchdogFirst
    if value = want then .next { s with sac := { s.sac with wdFirst := !s.sac.wdFirst } }
    else .next (s.sacReset 1).setLdrv

/-- R103, R461, R506: SACRISTY_RESET_COMPLETE: the record in force is read again, the firmware is chosen and runs; the reset's
causes are recorded as it does (R104, R452). A reset that came before step 5 goes on at step 5, so that vigil light can light the
lamp (R82). -/
def execSacristyResetComplete (sig : BitVec 2) (s : State) : Out :=
  if s.power.sacPhase ≠ .inReset then .next s
  else
    let s := { s with stalls := vset s.stalls 32 Stall.sacStart }
    if s.power.vigilArmed then
      .next (((({ s with power := { s.power with sacPhase := .armed } }).confLoad).startFirmware sig).setLdrv)
    else .next { s with power := { s.power with sacPhase := if s.power.refJudged then .tested else .rom } }

/-! ## Parking (SYSCTL_PARK, R79, R105) -/

/-- Units that SYSCTL_PARK cannot name. -/
def noPark (u : Nat) : Bool := [0, 16, 17, 18, 20].contains u

/-- R28, R30: the block of registers of a unit that restarts alone, if it has one. -/
def unitSpace (u : Nat) : Option Nat :=
  if 4 ≤ u ∧ u < 8 then some (0x08 + (u - 4))
  else if 8 ≤ u ∧ u < 12 then some (0x10 + (u - 8))
  else if u = 12 then some 0x20
  else if u = 13 then some 0x18
  else if u = 19 then some 0x0C
  else if u = 21 then some 0x30
  else none

/-- R101: the registers of a unit that restarts return to their reset values. -/
def State.unitRegsReset (s : State) (u : Nat) : State :=
  match unitSpace u with
  | none => s
  | some k =>
    let out := fun (a : Nat) => !decide (unitBase k ≤ a ∧ a < unitBase (k + 1))
    { s with
      regs := s.regs.filter (fun p => out p.1)
      latches := s.latches.filter (fun p => out p.1)
      holds := s.holds.filter (fun p => out p.1) }

/-- A unit's own state and registers when it is reset alone (a unit restart, R101). For a core the stalls with their priorities
return to reset, while SCHED_MISS and SCHED_QUANTUM, which are registers of the stall scheduler, stay: SCHED_PRIO's own line
names Nave reset only (DESIGN CHOICE, log 43). -/
def State.unitReset (s : State) (u : Nat) : State :=
  let s := s.unitRegsReset u
  if u < 4 then { s.coreStart u with caches := s.caches.dropCore u }
  else if u < 8 then ({ s with ring := { s.ring with lanes := vset s.ring.lanes (u - 4) { Lane.init with state := .parked } } }).portsNow
  else if u < 12 then { s with tp := vset s.tp (u - 8) TPortState.init }
  else if u = 12 then { s with clr := { Clr.init with level := s.clr.level } }
  else if u = 13 then { s with cph := { Cph.init with entropyFail := s.sac.trngFail } }
  else if u = 14 ∨ u = 15 then
    { s with mem := { s.mem with chan := vmod s.mem.chan (u - 14) (fun c => { c with state := .parked }) } }
  else if u = 19 then 
    { s with ring := { Ring.init with node := (if s.gateway then some 0 else none), lanes := s.ring.lanes, ports := s.ring.ports } }
  else if u = 21 then { s with lsio := Lsio.init (s.lsio.uart.map (fun x => x.ctsN)) s.lsio.gpioIn }
  else if u = 22 then { s with dbg := { Dbg.init with gate := s.dbg.gate } }
  else s

/-- R105: UNIT_PARK: the unit leaves service at once; parking the ring switch takes every lane out of service. -/
def State.park (s : State) (u : Nat) : State :=
  if noPark u ∨ ¬ s.hasUnit u ∨ s.flag aPark u then s
  else
    let s := s.modReg aPark (fun w => putBit w u true)
    let s := ((s.release u).unitDown u).unitReset u
    let s := { s with power := { s.power with toStart := putBit s.power.toStart u false } }
    if u = 19 then (List.range 4).foldl (fun s n => if s.unitReady (4 + n) then s.laneDown n .waiting else s) s else s

/-- R79: UNIT_UNPARK: through the admission order, the debug module at once. -/
def State.unpark (s : State) (u : Nat) : State :=
  if ¬ s.flag aPark u then s
  else
    let s := s.modReg aPark (fun w => putBit w u false)
    if u = 22 then s.unitUp 22
    else { s with power := { s.power with toStart := putBit s.power.toStart u true } }

/-- UNIT_PARK. -/
def execUnitPark (u : UnitBit) (s : State) : Out := .next (if s.naveRuns then s.park u.val else s)
/-- UNIT_UNPARK. -/
def execUnitUnpark (u : UnitBit) (s : State) : Out := .next (if s.naveRuns then s.unpark u.val else s)

/-- R101: SYSCTL_RESET_REQ; one that arrives in the same microsecond as another cause finds the die already in reset, and its
cause is recorded with the other. -/
def execSysctlResetReq (data : BitVec 32) (s : State) : Out :=
  if (s.naveRuns ∨ (s.power.navePhase = .down ∧ s.power.railsUp)) ∧ bits data 31 16 = 0x5AC7 ∧ bit data 0 then
    .next (s.requestNaveReset 2)
  else .next s

/-! ## Memory channels (R312, R314, R316, R317) -/

/-- R314: a range of memory as it stands with every line fresh: zero data and tags, no poison, no error. -/
def State.freshRange (s : State) (base n : Nat) : State :=
  let s := (s.clearMem base (base + n)).clearTags base n
  let out := fun (unit k : Nat) => !decide (base < (k + 1) * unit ∧ k * unit < base + n)
  { s with
    mem := { s.mem with
      poisonLines := s.mem.poisonLines.filter (out 64), latent := s.mem.latent.filter (fun p => out 64 p.1),
      latentTags := s.mem.latentTags.filter (out 8192), written := s.mem.written.filter (out 64) }
    caches := s.caches.keep (fun x => out 64 x.line) (fun x => out 8192 x.line) (fun x => out 2048 x.line) }

/-- R314: how the training of a channel ends. -/
def Chan.trained (c : Chan) (pass : Bool) : ChState :=
  match c.dev with
  | none => .none
  | some d => if dramOk d && pass then .ready else .failed

/-- R78, R314: a channel that is not to serve leaves the start: a record unless no device is fitted. -/
def State.chanOut (s : State) (u : Nat) (none : Bool) : State :=
  let s := s.release u
  let s := { s with power := { s.power with outUntilStart := putBit s.power.outUntilStart u true } }
  if none then s else s.log .startTimeout 1 u

/-- R312, R314: LPDDR_CHANNEL_TRAINED: a channel whose training step has begun becomes READY with every line fresh, or NONE, or
FAILED; it is READY only with both set points trained. -/
def execLpddrChannelTrained (ch : Fin 2) (high low : Bool) (temp : BitVec 8) (s : State) : Out :=
  let c := s.mem.chan[ch]
  let u := 14 + ch.val
  let pass := high && low
  if c.state ≠ .training then .next s
  else
    let s := s.freshRange (s.pair (aChBase ch.val)).toNat (s.pair (aChSize ch.val)).toNat
    let s := { s with mem := { s.mem with chan := vset s.mem.chan ch.val { c with
      state := c.trained pass, temp := if c.dev.isSome then temp else c.temp } } }
    if c.trained pass = .ready then
      let s := s.unitUp u
      .next (if s.power.starting.any (fun v => v.val == u) then { s with power := { s.power with starting := none } } else s)
    else .next (s.chanOut u (c.trained pass == .none))

end Sys2Proof.Machine
end

