-- ==== Sys2Proof/Machine/Timers.lean ====
section
/-!
DEFINITION. Sys2Proof/Machine/Timers.lean: the timer block and the lamp interface: general timers, lamp channels, edge
detectors, group and scheduled release, the DALI frame engine (R420 to R449).
-/
namespace Sys2Proof.Machine

/-- R10: what a plain write leaves in a register. R9: a W1C bit that hardware has set in the same cycle stays set; whether a
bit set since the last timer cycle was set in the cycle of the write is free (log 39). -/
def State.store (s : State) (a : Nat) (d : W32) : State :=
  match regSpec s.chip.variant.rateMax a with
  | some r =>
    let hit := s.freshBits a &&& s.reg a &&& d &&& r.w1cMask
    if hit = 0 then s.setReg a (r.write (s.reg a) d)
    else
      let (same, s) := s.drawBool
      s.setReg a (if same then r.write (s.reg a) d ||| hit else r.write (s.reg a) d)
  | none => s

/-! ## General timers -/

/-- A general timer by number. -/
def State.gt (s : State) (n : Nat) : Gt := vget s.tmr.gt n { state := .stopped, presc := 0 }
/-- Change a general timer. -/
def State.modGt (s : State) (n : Nat) (f : Gt → Gt) : State := { s with tmr := { s.tmr with gt := vmod s.tmr.gt n f } }
/-- A lamp channel by number. -/
def State.lp (s : State) (n : Nat) : Lp := vget s.tmr.lp n { state := .stopped, count := 0, presc := 0, clkdiv := 0, phase := 0 }
/-- Change a lamp channel. -/
def State.modLp (s : State) (n : Nat) (f : Lp → Lp) : State := { s with tmr := { s.tmr with lp := vmod s.tmr.lp n f } }
/-- R429: record a source event. -/
def State.source (s : State) (k : Nat) : State := { s with tmr := { s.tmr with trig := putBit s.tmr.trig k true } }

/-- R434: DBGFRZ is 1 and the owner is HALTED. -/
def State.gtFrozen (s : State) (n : Nat) : Bool :=
  s.flag (aGt n 0) 4 && (s.stall (s.field (aGt n 0x28) 4 0)).state == .halted

/-- R423: OUTk. -/
def State.gtOut (s : State) (n k : Nat) : Bool :=
  decide ((s.reg (aGt n 8)).toNat < (s.reg (aGt n (0x10 + 4 * k))).toNat) != s.flag (aGt n 0) (6 + k)

/-- R426: the shadows are copied, ARM clears and XFER is set. -/
def State.gtTransfer (s : State) (n : Nat) : State :=
  let s := s.setReg (aGt n 0xC) (s.reg (aGt n 0x18))
  let s := s.setReg (aGt n 0x10) (s.reg (aGt n 0x1C))
  let s := s.setReg (aGt n 0x14) (s.reg (aGt n 0x20))
  (s.hwClear (aGt n 0) 4).hwSet (aGt n 4) 0x100

/-- R422 to R424, R426, R427: a tick brings CNT to v; `bd`: it is a period boundary. The transfer comes first, so that
the compare of the new period uses the values of the new period (DEDUCED, log 16). -/
def State.gtArrive (s : State) (n v : Nat) (bd : Bool) : State :=
  let s := (s.setReg (aGt n 8) (BitVec.ofNat 32 v)).modGt n (fun g => { g with presc := 0 })
  let s := if bd ∧ s.flag (aGt n 0) 2 ∧ ¬ s.flag (aGt n 0) 3 then s.gtTransfer n else s
  let s := if bd ∧ s.flag (aGt n 0) 5 then (s.clrReg (aGt n 0) 1).modGt n (fun g => { g with state := .stopped }) else s
  let hit := fun (k : Nat) =>
    let c := (s.reg (aGt n (0x10 + 4 * k))).toNat
    decide (v = c) && decide (c ≤ (s.reg (aGt n 0xC)).toNat)
  let f := bd.toNat + 2 * (hit 0).toNat + 4 * (hit 1).toNat
  let ie := s.field (aGt n 0) 10 8
  let s := s.hwSet (aGt n 4) (BitVec.ofNat 32 f)
  let s := if bd then s.source n else s
  let s := if hit 0 then s.source (0x10 + n) else s
  if (f &&& ie) ≠ 0 then s.raise n else s

/-- R422: one tick. -/
def State.gtTick (s : State) (n : Nat) : State :=
  let c := s.reg (aGt n 8)
  if c = s.reg (aGt n 0xC) then s.gtArrive n 0 true else s.gtArrive n (c + 1).toNat false

/-- R422: one timer cycle of the prescaler. -/
def State.gtAdvance (s : State) (n : Nat) : State :=
  if (s.gt n).presc ≥ s.field (aGt n 0) 31 24 then s.gtTick n else s.modGt n (fun g => { g with presc := g.presc + 1 })

/-- R429: the level of a source. -/
def State.sourceLevel (s : State) (k : Nat) : Bool :=
  if k < 0x20 then s.gtOut (k % 16) 0
  else (vget s.tmr.ed (k % 16) Ed.init).level

/-- R429, R430: SLAVEMODE in effect: a timer that names itself has none. -/
def State.slaveMode (s : State) (n : Nat) : Nat :=
  let t := s.field (aGt n 0x24) 5 0
  if t = n ∨ t = 0x10 + n then 0 else s.field (aGt n 0x24) 10 8

/-- R422, R430, R434: one timer cycle of GTn; `b` is the state at the beginning of the cycle. -/
def State.gtCycle (b s : State) (n : Nat) : State :=
  let t := b.field (aGt n 0x24) 5 0
  let m := b.slaveMode n
  let ev := bit b.tmr.trig t
  match (b.gt n).state with
  | .stopped => s
  | .waiting => if m = 4 ∧ ev then s.modGt n (fun g => { g with state := .running }) else s
  | .running =>
    if b.gtFrozen n then s
    else if m = 1 then (if b.sourceLevel t then s.gtAdvance n else s)
    else if m = 2 ∧ ev then s.gtArrive n 0 true
    else if m = 3 then (if ev then s.gtTick n else s)
    else s.gtAdvance n

/-- R425: EN is written 1. -/
def State.gtEnable (s : State) (n : Nat) : State :=
  if (s.gt n).state ≠ .stopped then s
  else
    let s := s.orReg (aGt n 0) 1
    s.modGt n (fun g => { g with state := if s.flag (aGt n 0) 1 ∨ s.slaveMode n = 4 then .waiting else .running })

/-- R425: EN is written 0. -/
def State.gtDisable (s : State) (n : Nat) : State :=
  (s.clrReg (aGt n 0) 1).modGt n (fun g => { g with state := .stopped })

/-- R426: ARM is written 1. -/
def State.gtArm (s : State) (n : Nat) : State :=
  if (s.gt n).state = .stopped then s.gtTransfer n else s.swSet (aGt n 0) 4

/-- A write of TMR_GT_CTRL: ARM acts on the timer as it stood before the write (DEDUCED, log 16). -/
def State.gtCtrl (s : State) (n : Nat) (d : W32) : State :=
  let en := s.flag (aGt n 0) 0
  let w := s.store (aGt n 0) (d &&& ~~~ 4#32)
  let w := w.setField (aGt n 0) 0 0 en.toNat
  let w := if bit d 2 then w.gtArm n else w
  if bit d 0 then w.gtEnable n else w.gtDisable n

/-! ## Lamp channels -/

/-- R436: the high time of the period in progress. -/
def State.lpHigh (s : State) (n : Nat) : Nat :=
  let d := (s.reg (aLp n 8)).toNat
  d / 16 % 65536 + if bitrev4 (s.lp n).phase.toNat < d % 16 then 1 else 0

/-- R435: the Nave-side level of LPn. -/
def State.lpOut (s : State) (n : Nat) : Bool := decide ((s.lp n).count < s.lpHigh n) != s.flag (aLp n 0) 4

/-- R47: the level at the ball LPn: the drive that the override multiplexer passes. -/
def State.lpBall (s : State) (n : Nat) : Bool := if bit s.sac.mux.sacLp n then s.vigilLp n else s.lpOut n

/-- R445, R465: the level in millivolts at which DIM_OUT holds the dimming line (none: high impedance). -/
def State.dimBall (s : State) : Option Nat :=
  if s.sac.mux.sacDim then (if s.power.vigilArmed && s.sac.vigil.out.getLsbD 3 then some (s.sac.vigil.dim * 10) else none)
  else if s.flag (aLamp 8) 16 then some (min (s.field (aLamp 8) 9 0) 1000 * 10) else none

/-- R443: LPn is given back to the Nave drive if the outputs have been given back. -/
def State.lpGiveBack (s : State) (n : Nat) : State :=
  if s.sac.mux.taken then s
  else { s with sac := { s.sac with mux := { s.sac.mux with sacLp := putBit s.sac.mux.sacLp n false } } }

/-- R437, R426: the shadows of LPn are copied. -/
def State.lpTransfer (s : State) (n : Nat) : State :=
  let s := s.setReg (aLp n 4) (s.reg (aLp n 0xC))
  let s := s.setReg (aLp n 8) (s.reg (aLp n 0x10))
  (s.hwClear (aLp n 0) 4).hwSet (aLp n 0x14) 2

/-- R435 to R437, R443: the period boundary of LPn. -/
def State.lpBoundary (s : State) (n : Nat) : State :=
  let s := s.modLp n (fun p => { p with count := 0, presc := 0, phase := p.phase + 1, clkdiv := s.field (aLp n 0) 15 12 })
  let s := if s.flag (aLp n 0) 2 ∧ ¬ s.flag (aLp n 0) 3 then s.lpTransfer n else s
  (s.hwSet (aLp n 0x14) 1).lpGiveBack n

/-- R435: one timer cycle of LPn. -/
def State.lpCycle (s : State) (n : Nat) : State :=
  let p := s.lp n
  if p.state ≠ .running then s
  else if p.presc < p.clkdiv then s.modLp n (fun p => { p with presc := p.presc + 1 })
  else if p.count = s.field (aLp n 4) 15 0 then s.lpBoundary n
  else s.modLp n (fun p => { p with presc := 0, count := (p.count + 1) % 65536 })

/-- R437: EN is written 1. -/
def State.lpEnable (s : State) (n : Nat) : State :=
  if (s.lp n).state ≠ .stopped then s
  else
    let s := s.orReg (aLp n 0) 1
    s.modLp n (fun p => { p with state := if s.flag (aLp n 0) 1 then .waiting else .running })

/-- R437, R443: EN is written 0. -/
def State.lpDisable (s : State) (n : Nat) : State :=
  ((s.clrReg (aLp n 0) 1).modLp n (fun p => { p with state := .stopped })).lpGiveBack n

/-- R437: ARM is written 1. -/
def State.lpArm (s : State) (n : Nat) : State :=
  if (s.lp n).state = .stopped then s.lpTransfer n else s.swSet (aLp n 0) 4

/-- A write of TMR_LP_CTRL. -/
def State.lpCtrl (s : State) (n : Nat) (d : W32) : State :=
  let en := s.flag (aLp n 0) 0
  let w := s.store (aLp n 0) (d &&& ~~~ 4#32)
  let w := w.setField (aLp n 0) 0 0 en.toNat
  let w := if bit d 2 then w.lpArm n else w
  if bit d 0 then w.lpEnable n else w.lpDisable n

/-! ## Releases (R431 to R433) -/

/-- R431, R434: every GT and LP unit with EN and GSEN at 1 that waits begins to run. -/
def State.release1 (s : State) : State :=
  { s with tmr := { s.tmr with
    gt := Vector.ofFn (fun (i : Fin 16) =>
      let g := s.gt i.val
      if g.state = .waiting ∧ s.flag (aGt i.val 0) 1 then { g with state := .running } else g)
    lp := Vector.ofFn (fun (i : Fin 8) =>
      let p := s.lp i.val
      if p.state = .waiting ∧ s.flag (aLp i.val 0) 1 then { p with state := .running } else p) } }

/-- SYSCTL_TT_STATUS.VALID. -/
def State.ttValid (s : State) : Bool := s.flag aTtStatus 2

/-- R431 to R433: a release; made while VALID is 0, it sets NOTVALID. -/
def State.groupRelease (s : State) : State := if s.ttValid then s.release1 else s.release1.hwSet (aTmr 0x3004) 4

/-- R432: the scheduled release is made, and ends. -/
def State.makeRelease (s : State) : State :=
  let s := s.groupRelease
  { s with tmr := { s.tmr with pending := false } }

/-- R432, R433: a pending scheduled release is made once the counter is at or above TMR_GSTART_AT. -/
def State.checkRelease (s : State) : State :=
  if s.tmr.pending ∧ (s.pair (aTmr 0x3008)).toNat ≤ s.tt.now.toNat ∧ (¬ s.flag (aTmr 0x3000) 3 ∨ s.ttValid) then s.makeRelease else s

/-- R433: ARM_AT is written 1. -/
def State.armAt (s : State) : State :=
  let s := if (s.pair (aTmr 0x3008)).toNat ≤ s.tt.now.toNat then s.hwSet (aTmr 0x3004) 2 else s
  { s with tmr := { s.tmr with pending := true } }

/-- R432: CANCEL is written 1. -/
def State.cancelRelease (s : State) : State := { s with tmr := { s.tmr with pending := false } }

/-- A write of TMR_GSTART: GO, then CANCEL, then ARM_AT (DESIGN CHOICE, log 16). -/
def State.gstartWrite (s : State) (d : W32) : State :=
  let s := s.store (aTmr 0x3000) d
  let s := if bit d 0 then s.groupRelease else s
  let s := if bit d 2 then s.cancelRelease else s
  if bit d 1 then s.armAt else s

/-- R428: act on every unit of a mask. -/
def State.group (s : State) (units : W32) (g l : State → Nat → State) : State :=
  let s := (List.range 16).foldl (fun s n => if bit units n then g s n else s) s
  (List.range 8).foldl (fun s n => if bit units (16 + n) then l s n else s) s

/-! ## Edge detectors (R438 to R441) -/

/-- An edge detector by number. -/
def State.ed (s : State) (n : Nat) : Ed := vget s.tmr.ed n Ed.init
/-- Change an edge detector. -/
def State.modEd (s : State) (n : Nat) (f : Ed → Ed) : State := { s with tmr := { s.tmr with ed := vmod s.tmr.ed n f } }

/-- R42: the bank of a GPIO ball is powered (GPIO0 to 15 on bank B, GPIO16 to 31 on bank C). -/
def State.gpioPowered (s : State) (g : Nat) : Bool := s.bankUp (if g < 16 then 1 else 2)

/-- R439, R440: the filtered level of EDn changes. -/
def State.edge (s : State) (n : Nat) (level : Bool) : State :=
  let e := s.ed n
  if e.level = level ∨ ¬ s.gpioPowered (s.field (aEd n 0) 4 0) then s
  else
    let s := s.modEd n (fun e => { e with level := level })
    let sel := s.field (aEd n 0) 9 8
    if ¬ (if level then sel % 2 = 1 else sel / 2 = 1) then s
    else
      let mi := s.field (aEd n 4) 23 0
      let limited : Bool := match e.last with
        | some t => decide (mi ≠ 0) && decide (s.tmr.cycles < t + mi)
        | none => false
      if limited then (s.count (aEd n 0x20)).hwSet (aEd n 8) 0x200
      else if e.fifo.length ≥ 4 then (s.count (aEd n 0x18)).hwSet (aEd n 8) 0x100
      else
        let lag := (s.field (aEd n 0) 23 16 + 2) * 10
        let (ts, s) := if s.tt.now.toNat < lag then s.drawWord else (s.tt.now - BitVec.ofNat 64 lag, s)
        let s := s.modEd n (fun e => { e with fifo := e.fifo ++ [{ rising := level, ts := ts }], last := some s.tmr.cycles })
        (s.source (0x20 + n)).raise (16 + n)

/-- R438: one timer cycle of EDn with its ball at a level: two cycles of synchronisation, then the level is taken once the input
has held it for FILT cycles. A ball that stays as it was leaves the stages as they are, so that an edge that ED_EDGE tells of
stands until the ball moves. -/
def State.edCycle (s : State) (n : Nat) (ball : Bool) : State :=
  let e := s.ed n
  let first := if ball = e.ball then bit e.sync 0 else ball
  let second := bit e.sync 0
  let held := if second = e.level then 0 else e.held + 1
  let s := s.modEd n (fun e => { e with ball := ball, sync := putBit (putBit e.sync 0 first) 1 second, held := held })
  if held ≤ s.field (aEd n 0) 23 16 then s else (s.edge n second).modEd n (fun e => { e with held := 0 })

/-- R438, R439: ED_EDGE's word for it: the input has held the level for FILT cycles. -/
def State.edFiltered (s : State) (n : Nat) (level : Bool) : State :=
  (s.edge n level).modEd n (fun e => { e with sync := if level then 3 else 0, held := 0 })

/-- R441: POP. -/
def State.edPop (s : State) (n : Nat) : State := s.modEd n (fun e => { e with fifo := e.fifo.drop 1 })

/-! ## What the timer registers read (R425, R423, R435, R441) and what writes do -/

/-- The number of a state in a CTRL register. -/
def RunState.code : RunState → Nat
  | .stopped => 0
  | .waiting => 1
  | .running => 2

/-- The word that a timer register reads. -/
def State.tmrView (s : State) (off : Nat) : W32 :=
  let raw := s.reg (aTmr off)
  if off < 0x1000 then
    let n := off / 0x100
    if off % 0x100 = 0 then
      let st := (s.gt n).state
      putBits raw 13 12 (if st ≠ .stopped ∧ s.gtFrozen n then 3 else st.code)
    else if off % 0x100 = 4 then putBit (putBit raw 4 (s.gtOut n 0)) 5 (s.gtOut n 1)
    else raw
  else if off < 0x2000 then
    let n := off % 0x1000 / 0x100
    let e := s.ed n
    let old := e.fifo.headD { rising := false, ts := 0 }
    if off % 0x100 = 8 then putBits (putBit (putBit raw 5 old.rising) 4 e.level) 2 0 e.fifo.length
    else if off % 0x100 = 0x10 then old.ts.truncate 32
    else if off % 0x100 = 0x14 then (old.ts >>> 32).truncate 32
    else raw
  else if off < 0x2800 then
    let n := off % 0x1000 / 0x100
    if off % 0x100 = 0 then putBits raw 17 16 (s.lp n).state.code
    else if off % 0x100 = 0x14 then
      putBits (putBit (putBit raw 4 (s.lpOut n)) 5 (!bit s.sac.mux.sacLp n)) 11 8 (s.lp n).phase.toNat
    else raw
  else if off = 0x3004 then putBit raw 0 s.tmr.pending
  else if off = 0x301C then
    let g := (List.range 16).foldl (fun m n => m + (s.flag (aGt n 0) 3).toNat * 2 ^ n) 0
    BitVec.ofNat 32 ((List.range 8).foldl (fun m n => m + (s.flag (aLp n 0) 3).toNat * 2 ^ (16 + n)) g)
  else raw

/-- ARM for a set of units. -/
def State.armSet (s : State) (u : W32) : State := s.group u State.gtArm State.lpArm
/-- HOLD set for a set of units. -/
def State.holdSet (s : State) (u : W32) : State := s.group u (fun s n => s.orReg (aGt n 0) 8) (fun s n => s.orReg (aLp n 0) 8)
/-- HOLD cleared for a set of units. -/
def State.holdClr (s : State) (u : W32) : State := s.group u (fun s n => s.clrReg (aGt n 0) 8) (fun s n => s.clrReg (aLp n 0) 8)

/-- A write of a timer register. -/
def State.tmrWrite (s : State) (off : Nat) (d : W32) : State :=
  if off < 0x1000 then
    let n := off / 0x100
    if off % 0x100 = 0 then s.gtCtrl n d
    else if off % 0x100 = 8 then (if (s.gt n).state = .stopped then s.store (aTmr off) d else s)
    else s.store (aTmr off) d
  else if off < 0x2000 then
    if off % 0x100 = 0xC then (if bit d 0 then s.edPop (off % 0x1000 / 0x100) else s) else s.store (aTmr off) d
  else if off < 0x2800 then
    if off % 0x100 = 0 then s.lpCtrl (off % 0x1000 / 0x100) d else s.store (aTmr off) d
  else if off = 0x3000 then s.gstartWrite d
  else if off = 0x3010 then s.armSet d
  else if off = 0x3014 then s.holdSet d
  else if off = 0x3018 then s.holdClr d
  else s.store (aTmr off) d

/-! ## The lamp interface (R442 to R449) -/

/-- R447 to R449: GO: ignored while BUSY; RESULT 5 while DALI is not passed, RESULT 6 while the bus is faulty. -/
def State.daliGo (s : State) : State :=
  if s.dali.busy then s
  else if s.sac.mux.sacDali then s.daliResult 5
  else if s.dali.fault then s.daliResult 6
  else { s with dali := { s.dali with busy := true, ask := s.flag (aLamp 0x10) 27,
                                      last := some (s.flag (aLamp 0x10) 24, (s.reg (aLamp 0x10)).truncate 24) } }

/-- A write of DALI_TX. -/
def State.daliTx (s : State) (d : W32) : State :=
  let s := s.store (aLamp 0x10) d
  if bit d 31 then s.daliGo else s

/-- The word that a register of the lamp interface reads. -/
def State.lampView (s : State) (off : Nat) : W32 :=
  let raw := s.reg (aLamp off)
  let m := s.sac.mux
  let cut := fun n => (vget s.sac.safety.str n StringSup.init).cut || (vget s.sac.safety.str n StringSup.init).latched
  if off = 0 then BitVec.ofNat 32 ((~~~ m.sacLp).toNat + 256 * (!m.sacDali).toNat + 512 * (!m.sacDim).toNat + 65536 * m.taken.toNat)
  else if off = 4 then putBit (putBit (putBits raw 9 8 m.ldrvEn.toNat) 16 (cut 0)) 17 (cut 1)
  else if off = 0x14 then putBit (putBit raw 8 s.dali.fault) 0 s.dali.busy
  else raw

/-- A write of a register of the lamp interface; BUSFAULT_SEEN stays while BUSFAULT is 1 (R449). -/
def State.lampWrite (s : State) (off : Nat) (d : W32) : State :=
  if off = 0x10 then s.daliTx d
  else if off = 4 then (s.store (aLamp 4) d).setLdrv
  else if off = 0x14 then (if s.dali.fault then (s.store (aLamp 0x14) d).orReg (aLamp 0x14) 0x200 else s.store (aLamp 0x14) d)
  else s.store (aLamp off) d

/-! ## The commands -/

/-- R422: GT_PERIOD_BOUNDARY: the time of the boundary has come for a running timer. -/
def execGtPeriodBoundary (n : Fin 16) (s : State) : Out :=
  .next (if (s.gt n.val).state = .running ∧ ¬ s.gtFrozen n.val then s.gtArrive n.val 0 true else s)

/-- R423: GT_COMPARE_EVENT: the time has come at which CNT becomes CMPk; with CMPk at 0 that is the period boundary. -/
def execGtCompareEvent (n : Fin 16) (k : Fin 2) (s : State) : Out :=
  let c := (s.reg (aGt n.val (0x10 + 4 * k.val))).toNat
  .next (if (s.gt n.val).state = .running ∧ ¬ s.gtFrozen n.val ∧ c ≤ (s.reg (aGt n.val 0xC)).toNat then
    s.gtArrive n.val c (c = 0) else s)

/-- R425: GT_ENABLE. -/
def execGtEnable (n : Fin 16) (s : State) : Out := .next (s.unitAct 17 (fun s => s.gtEnable n.val))
/-- R425: GT_DISABLE. -/
def execGtDisable (n : Fin 16) (s : State) : Out := .next (s.unitAct 17 (fun s => s.gtDisable n.val))
/-- R426: GT_ARM. -/
def execGtArm (n : Fin 16) (s : State) : Out := .next (s.unitAct 17 (fun s => s.gtArm n.val))
/-- R428: TMR_ARM_SET. -/
def execTmrArmSet (units : BitVec 32) (s : State) : Out := .next (s.unitAct 17 (fun s => s.armSet units))
/-- R428: TMR_HOLD_SET. -/
def execTmrHoldSet (units : BitVec 32) (s : State) : Out := .next (s.unitAct 17 (fun s => s.holdSet units))
/-- R428: TMR_HOLD_CLR. -/
def execTmrHoldClr (units : BitVec 32) (s : State) : Out := .next (s.unitAct 17 (fun s => s.holdClr units))
/-- R432: GSTART_GO. -/
def execGstartGo (s : State) : Out := .next (s.unitAct 17 State.groupRelease)
/-- R433: ARM_AT. -/
def execArmAt (s : State) : Out := .next (s.unitAct 17 State.armAt)
/-- R432: GSTART_CANCEL. -/
def execGstartCancel (s : State) : Out := .next (s.unitAct 17 State.cancelRelease)
/-- R435: LP_PERIOD_BOUNDARY: the time of the boundary has come for a running channel. -/
def execLpPeriodBoundary (n : Fin 8) (s : State) : Out :=
  .next (if (s.lp n.val).state = .running then s.lpBoundary n.val else s)
/-- R437: LP_ENABLE. -/
def execLpEnable (n : Fin 8) (s : State) : Out := .next (s.unitAct 17 (fun s => s.lpEnable n.val))
/-- R437: LP_DISABLE. -/
def execLpDisable (n : Fin 8) (s : State) : Out := .next (s.unitAct 17 (fun s => s.lpDisable n.val))
/-- R437: LP_ARM. -/
def execLpArm (n : Fin 8) (s : State) : Out := .next (s.unitAct 17 (fun s => s.lpArm n.val))
/-- R439: ED_EDGE. -/
def execEdEdge (n : Fin 16) (level : Bool) (s : State) : Out :=
  .next (if s.unitReady 17 then s.edFiltered n.val level else s)
/-- R441: TMR_ED_POP. -/
def execTmrEdPop (n : Fin 16) (s : State) : Out := .next (s.unitAct 17 (fun s => s.edPop n.val))
/-- R447: DALI_TX_GO: a write of DALI_TX. -/
def execDaliTxGo (data : BitVec 32) (s : State) : Out := .next (if s.naveRuns then s.daliTx data else s)

/-- R447: the RESULT of an end. -/
def daliCode (e : DaliEnd) (ask : Bool) : Nat :=
  match e with
  | .sent => 0
  | .answer _ => if ask then 1 else 0
  | .noAnswer => if ask then 2 else 0
  | .invalid => if ask then 3 else 0
  | .collision => 4

/-- R447: an end that the engine does not come to: with ANSWER at 1 it listens on after the frame. -/
def daliEarly (e : DaliEnd) (ask : Bool) : Bool := ask && e == .sent

/-- R447, R443: DALI_FRAME_END: the frame on the bus ends; a frame of the Sacristy that ends lets DALI be given back. -/
def execDaliFrameEnd (e : DaliEnd) (s : State) : Out :=
  if s.dali.busy ∧ daliEarly e s.dali.ask then .next s
  else if s.dali.busy then
    let s := s.daliResult (daliCode e s.dali.ask)
    .next (match e with
      | .answer b => if s.dali.ask then s.setField (aLamp 0x14) 23 16 b.toNat else s
      | _ => s)
  else match s.dali.sacFrame with
    | some f => .next { s with
        dali := { s.dali with sacFrame := none, last := some (false, f.zeroExtend 24) }
        sac := { s.sac with mux := { s.sac.mux with sacDali := s.sac.mux.taken } } }
    | none => .next s

/-- R449: DALI_BUS_FAULT. -/
def execDaliBusFault (s : State) : Out :=
  let s := ({ s with dali := { s.dali with fault := true } }).hwSet (aLamp 0x14) 0x200
  .next (if s.dali.busy then s.daliResult 6 else s)

/-- R449: DALI_BUS_FAULT_CLEAR. -/
def execDaliBusFaultClear (s : State) : Out := .next { s with dali := { s.dali with fault := false } }

end Sys2Proof.Machine
end

