-- ==== Sys2Proof/Machine/TownTime.lean ====
section
/-!
DEFINITION. Sys2Proof/Machine/TownTime.lean: town time: the counter, its source, steps and trims, PPS_IN and PPS_OUT, the
Sacristy's copy (R95 to R100).
-/
namespace Sys2Proof.Machine

/-- R96: the source selected: 1 ring, else SRC_SEL. -/
def State.ttSrc (s : State) : Nat := if s.gateway then s.field aTtCtrl 1 0 else 1

/-- R98: PPS_OUT rises if it is enabled. -/
def State.ppsRise (s : State) : State :=
  if s.flag aTtCtrl 7 then { s with tt := { s.tt with ppsOut := true } } else s

/-- The whole second in which a town time lies. -/
def ttSecond (t : BitVec 64) : Nat := t.toNat / 1000000000

/-- R95, R98, R433: the counter takes a value, by advance or by a step: a crossing of a whole second upward lets PPS_OUT
rise, and a scheduled release that has come due is made. -/
def State.ttMove (s : State) (v : BitVec 64) : State :=
  let up := decide (ttSecond s.tt.now < ttSecond v)
  let s := { s with tt := { s.tt with now := v } }
  let s := if up then s.ppsRise else s
  s.checkRelease

/-- R97: a step: STEPS, BACK. -/
def State.ttStep (s : State) (v : BitVec 64) : State :=
  let back := decide (v.toNat < s.tt.now.toNat)
  let s := s.setField aTtStatus 15 8 (min 255 (s.field aTtStatus 15 8 + 1))
  let s := if back then s.hwSet aTtStatus 0x20 else s
  s.ttMove v

/-- R97, R100: a synchronisation: VALID becomes 1 and HOLDOVER 0; the event is raised for a change of either or a step. -/
def State.ttSynced (s : State) (stepped : Bool) : State :=
  let ch := stepped || !s.flag aTtStatus 2 || s.flag aTtStatus 4
  let s := (s.orReg aTtStatus 4).clrReg aTtStatus 0x10
  (if ch then s.raise 47 else s).checkRelease

/-- R97, R433: a step that a synchronisation makes: VALID is 1 at the cycle of the step, so that a release that comes due
in it is made with town time valid. -/
def State.ttSyncStep (s : State) (v : BitVec 64) : State :=
  ((s.orReg aTtStatus 4).ttStep v).ttSynced true

/-- R97: a measurement finds the source `off` nanoseconds ahead: beyond 1 µs the counter steps; within it the trim takes a
value within ±500 ppm that the spec leaves to the servo (log 10). -/
def State.ttMeasure (s : State) (off : Int) : State :=
  let s := s.setField aTtStatus 31 16 (BitVec.ofInt 16 (clampInt (-32767) 32767 off)).toNat
  let s := { s with tt := { s.tt with inUse := true } }
  if off < -1000 ∨ 1000 < off then s.ttSyncStep (s.tt.now + BitVec.ofInt 64 off)
  else
    let (w, s) := s.drawWord
    ({ s with tt := { s.tt with trimPpb := (w.toNat % 1000001 : Nat) - 500000 } }).ttSynced false

/-- R97: the difference of two town times. -/
def ttDiff (a b : BitVec 64) : Int := (a.toNat : Int) - b.toNat

/-- R95: one timer cycle of the counter: 10 ns and the trim. -/
def State.ttTick (s : State) : State :=
  let f := s.tt.frac + 10 * s.tt.trimPpb
  let add := 10 + f / 1000000000
  let s := { s with tt := { s.tt with frac := f % 1000000000 } }
  s.ttMove (s.tt.now + BitVec.ofInt 64 add)

/-- R99: one timer cycle of the Sacristy's copy: 10 ns from the reference; from the internal oscillator within ±3 % of
that, which whole nanoseconds show as 9, 10 or 11 (log 1). -/
def State.ttSacTick (s : State) : State :=
  if s.power.refGood then { s with tt := { s.tt with sac := s.tt.sac + 10 } }
  else
    let (w, s) := s.drawWord
    { s with tt := { s.tt with sac := s.tt.sac + BitVec.ofNat 64 (9 + w.toNat % 3) } }

/-- R97: TOWN_TIME_MEASUREMENT: taken while a source is selected. -/
def execTownTimeMeasurement (source : BitVec 64) (s : State) : Out :=
  .next (if s.naveRuns ∧ s.ttSrc ≠ 0 then s.ttMeasure (ttDiff source s.tt.now) else s)

/-- R97: a load from SYSCTL_TT_SET: a step and a synchronisation. -/
def State.ttLoad (s : State) (v : BitVec 64) : State := s.ttSyncStep v

/-- R42, R98: PPS_IN_EDGE: not seen while bank D is unpowered; with PPS_IN as the source, a load that waits is made, else the
edge is a measurement to the nearest whole second, the timestamp being within ±5 ns (log 10). -/
def execPpsInEdge (s : State) : Out :=
  if ¬ s.naveRuns ∨ ¬ s.bankUp 3 ∨ s.ttSrc ≠ 3 then .next s
  else match s.tt.setWait with
    | some v => .next (({ s with tt := { s.tt with setWait := none, inUse := true } }).ttLoad v)
    | none =>
      let (w, s) := s.drawWord
      let at_ : Int := (s.tt.now.toNat : Int) + ((w.toNat % 11 : Nat) - 5)
      .next (s.ttMeasure ((at_ + 500000000) / 1000000000 * 1000000000 - at_))

/-- R98: PPS_OUT_RISE: town time crosses the next whole second by advance. -/
def execPpsOutRise (s : State) : Out :=
  .next (if s.naveRuns ∧ s.flag aTtCtrl 7 then s.ttMove (BitVec.ofNat 64 ((ttSecond s.tt.now + 1) * 1000000000)) else s)

/-- R98: PPS_OUT_END. -/
def execPpsOutEnd (s : State) : Out := .next { s with tt := { s.tt with ppsOut := false } }

/-- R100: TOWN_TIME_SOURCE_LOST: a source that was in use is lost. -/
def State.ttLost (s : State) : State :=
  if ¬ s.tt.inUse then s
  else
    let was := s.flag aTtStatus 4
    let s := ({ s with tt := { s.tt with inUse := false } }).orReg aTtStatus 0x10
    if was then s else s.raise 47

/-- TOWN_TIME_SOURCE_LOST. -/
def execTownTimeSourceLost (s : State) : Out := .next s.ttLost

/-- R99: SACRISTY_TIME_RESYNC: while VALID is 1, through the Hatch. -/
def execSacristyTimeResync (s : State) : Out :=
  .next (if s.naveRuns ∧ s.ttValid ∧ s.fw then { s with tt := { s.tt with sac := s.tt.now, sacSynced := true } } else s)

/-- SYSCTL_TT_SET: in gateway role, at once with SRC_SEL 0b00, at the next PPS_IN edge with 0b11. -/
def State.ttSet (s : State) (v : BitVec 64) : State :=
  if ¬ s.gateway then s
  else match s.ttSrc with
    | 0 => s.ttLoad v
    | 3 => { s with tt := { s.tt with setWait := some v } }
    | _ => s

/-- R97: TT_SET_WRITE. -/
def execTtSetWrite (value : BitVec 64) (s : State) : Out := .next (if s.naveRuns then s.ttSet value else s)

/-- A write of SYSCTL_TT_CTRL: SRC_SEL is fixed in lantern role, and 0b01 is reserved in gateway role. Two points that the spec
leaves open are the model's choice (DESIGN CHOICE, log 40): a value that waits in SYSCTL_TT_SET for a PPS_IN edge is kept when
SRC_SEL leaves 0b11 (R97), and a source that software deselects is no longer in use, without counting as lost (R100). -/
def State.ttCtrl (s : State) (d : W32) : State :=
  let s1 := s.store aTtCtrl d
  if s.gateway ∧ bits d 1 0 ≠ 1 then
    let s1 := s1.setField aTtCtrl 1 0 (bits d 1 0)
    if bits d 1 0 = s.field aTtCtrl 1 0 then s1 else { s1 with tt := { s1.tt with inUse := false } }
  else s1

/-- R433: SCHEDULED_RELEASE: town time reaches TMR_GSTART_AT by advance. -/
def execScheduledRelease (s : State) : Out :=
  let at_ := s.pair (aTmr 0x3008)
  if ¬ s.tmr.pending ∨ (s.flag (aTmr 0x3000) 3 ∧ ¬ s.ttValid) then .next s
  else if s.tt.now.toNat < at_.toNat then .next (s.ttMove at_)
  else .next s.checkRelease

end Sys2Proof.Machine
end

