-- ==== Sys2Proof/Machine/Derating.lean ====
section
/-!
DEFINITION. Sys2Proof/Machine/Derating.lean: the derating controller: requirements, levels, the order of a change, the
wear indicators and thermal shutdown (R92, R416, R419, R458, R462, R463, R541 to R549).
-/
namespace Sys2Proof.Machine

/-- Change the derating controller. -/
def State.modDerate (s : State) (f : Derate → Derate) : State := { s with sac := { s.sac with derate := f s.sac.derate } }

/-! ## What a level does to clocks, lanes and units (R541, R321, R416, R419) -/

/-- R541: an island's clock in MHz at a level; 0: off. Lane pairs and tenant ports do not follow the level (R91). -/
def islandMhz (i : Island) (l : Nat) : Nat :=
  match i with
  | .core _ | .l2 => if l = 0 then 1600 else if l = 1 then 1200 else if l = 2 then 800 else 400
  | .ringSwitch => if l ≤ 1 then 1000 else if l = 2 then 500 else 250
  | .cipher => if l = 0 then 1000 else if l = 1 then 750 else if l = 2 then 500 else 250
  | .clerestory => if l = 0 then 800 else if l = 1 then 600 else if l = 2 then 400 else 0
  | .timers => 100
  | .sacristy | .lsio => 200
  | .lanePair _ | .tenant => 0

/-- R91: the lane rate of a RATE_MAX code in Mbit/s (R321). -/
def laneMbps (r : Nat) : Nat := if r = 3 then 112000 else if r = 2 then 56000 else if r = 1 then 28000 else 0

/-- R91: an island's clock in kHz: lane pairs run at the lane rate divided by 128, tenant ports at 25.78125 Gbit/s divided by 64,
both from SREFCLK, without which they stand. The spec says of the Sacristy that it runs at 200 MHz from the crystal, and within
3 % of that from its internal oscillator. -/
def State.islandKhz (s : State) (i : Island) : Nat :=
  match i with
  | .lanePair p =>
    if ¬ s.power.srefGood then 0
    else laneMbps (max (vget s.ring.lanes p.val Lane.init).rate.toNat (vget s.ring.lanes (p.val + 2) Lane.init).rate.toNat) * 1000 / 128
  | .tenant => if s.power.srefGood then 25781250 / 64 else 0
  | i => 1000 * islandMhz i s.sac.derate.clocks.toNat

/-- R541, R313: the data rate of an LPDDR5X channel in MT/s at a level. -/
def lpddrMts (l : Nat) : Nat := if l ≤ 1 then 8533 else 4266

/-- The islands that relock when the level of the clocks goes from one level to another (R92, R463). -/
def relockSet (a b : Nat) : List Island :=
  ([.core 0, .core 1, .core 2, .core 3, .l2, .ringSwitch, .cipher, .clerestory] : List Island).filter
    (fun i => islandMhz i a != islandMhz i b && islandMhz i b != 0)

/-- R321: the lane rate that a level allows, as RATE_MAX encodes it. -/
def rateAllowed (l : Nat) : Nat := if l ≤ 1 then 3 else if l = 2 then 2 else 1

/-- R321: the rate of a span that this end offers: the lowest RATE_MAX of the port's present lanes that are not held off. -/
def State.spanMax (s : State) (p : Nat) : Nat :=
  ([p, p + 2].filter (fun n => s.hasUnit (4 + n) && s.field (aLane n 0) 1 0 != 0)).foldl (fun m n => min m (s.field (aLane n 0) 1 0)) 3

/-- R321: the rate at which a lane may run at a level: one for every lane of its span. -/
def State.laneMay (s : State) (n l : Nat) : Nat :=
  if s.field (aLane n 0) 1 0 = 0 then 0
  else min (min (s.spanMax (n % 2)) (rateAllowed l)) (vget s.ring.lanes n Lane.init).peerRate.toNat

/-- R463, R347: the clocks go from a level to another: lanes in service whose rate the new one no longer allows retrain, and at a lower
level those that may run faster; the others keep running. -/
def State.retrainFor (s : State) (old l : Nat) : State :=
  (List.range 4).foldl (fun s n =>
    let r := (vget s.ring.lanes n Lane.init).rate.toNat
    if rateAllowed l < r ∨ (l < old ∧ r < s.laneMay n l) then s.planRetrain n else s) s

/-- R541, R419: at D3 the tenant ports and the Clerestory leave service at once; leaving D3 they wait for admission. -/
def State.unitsFor (s : State) (old new : Nat) : State :=
  let us := [8, 9, 10, 11, 12]
  if new = 3 ∧ old ≠ 3 then
    us.foldl (fun s u =>
      let s := ((s.release u).unitDown u).unitReset u
      { s with power := { s.power with toStart := putBit s.power.toStart u false } }) s
  else if old = 3 ∧ new ≠ 3 then
    us.foldl (fun s u => if s.hasUnit u ∧ s.naveRuns then { s with power := { s.power with toStart := putBit s.power.toStart u true } } else s) s
  else s

/-- R92, R463: the clocks take a level: affected islands hold their handshakes, lanes retrain, the Clerestory takes the
level at its next frame boundary (R416). -/
def State.clocksTo (s : State) (l : Nat) : State :=
  let old := s.sac.derate.clocks.toNat
  let s := s.modDerate (fun d => { d with clocks := BitVec.ofNat 2 l })
  if ¬ s.naveUp then s
  else
    let new := (relockSet old l).filter (fun i => !s.power.relocking.contains i)
    let s := { s with
      power := { s.power with relocking := s.power.relocking ++ new }
      clr := { s.clr with levelDue := some (BitVec.ofNat 2 l) } }
    s.retrainFor old l

/-- R462, R463: the level changes: a record, DERATE, the telemetry page; a higher level takes the clocks at once, a lower
one raises VDD_NAVE first. -/
def State.levelTo (s : State) (l : Nat) : State :=
  let old := s.sac.derate.level.toNat
  if l = old then s
  else
    let s := s.modDerate (fun d => { d with level := BitVec.ofNat 2 l })
    let s := (s.log .derateLevel 0 l).raise 50
    let s := s.unitsFor old l
    let s :=
      if ¬ s.naveUp then s.modDerate (fun d => { d with clocks := BitVec.ofNat 2 l, vdd := BitVec.ofNat 2 l, vddTo := none })
      else if s.sac.derate.clocks.toNat < l then (s.modDerate (fun d => { d with vddTo := none })).clocksTo l
      else s.modDerate (fun d => { d with vddTo := some (BitVec.ofNat 2 l) })
    if s.fw then s.telemetry else s

/-! ## Requirements (R544 to R548) -/

/-- R544: the level that a temperature in 0.1 °C triggers. -/
def thermalTrigger (t : Int) : Nat := if t ≥ 1210 then 3 else if t ≥ 1150 then 2 else if t ≥ 1080 then 1 else 0
/-- R544: the value in 0.1 °C below which a level is released. -/
def thermalRelease (l : Nat) : Int := if l = 3 then 1170 else if l = 2 then 1110 else 1040

/-- R544: one tick of the thermal requirement. -/
def Derate.thermalTick (d : Derate) (tj : Int) : Derate :=
  let t := thermalTrigger tj
  if d.thermal.toNat < t then { d with thermal := BitVec.ofNat 2 t, coolFor := 0 }
  else if d.thermal = 0 then d
  else if tj < thermalRelease d.thermal.toNat then
    if d.coolFor + 1 ≥ 10000 then { d with thermal := d.thermal - 1, coolFor := 0 } else { d with coolFor := d.coolFor + 1 }
  else { d with coolFor := 0 }

/-- R547: one tick of the ledger requirement. -/
def Derate.ledgerTick (d : Derate) (excess : Bool) : Derate :=
  if excess then { d with ledger := true, ledgerFor := 0 }
  else if d.ledger ∧ d.ledgerFor + 1 < 1000 then { d with ledgerFor := d.ledgerFor + 1 }
  else { d with ledger := false, ledgerFor := 0 }

/-- R548: the flash indicator: words reprogrammed by the last whole scrub pass, over both aisles. -/
def State.flashIndicator (s : State) : Bool :=
  let n := s.sac.flash.toList.foldl (fun m f => m + f.lastPass) 0
  if n > 64 then true else if n ≤ 16 then false else s.sac.derate.flash

/-- R545: the Nave die is up, and each of its eight sensors has been read and gives no valid reading. -/
def State.noSensor (s : State) : Bool :=
  s.naveUp && s.sac.badSensors == 0xFF && s.sac.naveTemp.toList.all (fun t => t.isNone)

/-- R462: the highest level that any requirement asks for. -/
def State.required (s : State) : Nat :=
  let d := s.sac.derate
  let t := if s.noSensor then 3 else d.thermal.toNat
  let b := if s.power.brownOut ∨ d.ledger then 3 else 0
  max (max t b) d.wearLevel

/-- R462: DERATE_EVALUATION, every 1 ms; the ledger requirement is judged once the ledger has been evaluated (R76). -/
def execDerateEvaluation (s : State) : Out :=
  if ¬ s.fw then .next s
  else
    let excess := decide (s.ledgerBudget ≠ 0) && decide (s.ledgerBudget < s.used)
    let fl := s.flashIndicator
    let s := s.modDerate (fun d => { (d.thermalTick s.sac.tjmax).ledgerTick excess with flash := fl })
    .next (s.levelTo s.required)

/-- R463, R543: VDD_NAVE_SETTLED: VDD_NAVE has reached the value it moves to; where it has risen, the clocks follow. -/
def execVddNaveSettled (s : State) : Out :=
  match s.sac.derate.vddTo with
  | none => .next s
  | some v =>
    let s := s.modDerate (fun d => { d with vdd := v, vddTo := none })
    .next (if v.toNat < s.sac.derate.clocks.toNat then s.clocksTo v.toNat else s)

/-- R92, R463: ISLAND_CLOCK_RESUME: the island resumes; once no island relocks, VDD_NAVE is lowered to the level of the
clocks. -/
def execIslandClockResume (i : Island) (s : State) : Out :=
  if ¬ s.power.relocking.contains i then .next s
  else
    let s := { s with power := { s.power with relocking := s.power.relocking.filter (fun j => j != i) } }
    let d := s.sac.derate
    .next (if s.power.relocking.isEmpty ∧ d.vddTo = none ∧ d.vdd.toNat < d.clocks.toNat then
      s.modDerate (fun d => { d with vddTo := some d.clocks }) else s)

/-! ## Sensors and indicators -/

/-- R545: a reading that counts. -/
def sensorOk (t : Int) : Bool := decide (-500 ≤ t ∧ t ≤ 1750)

/-- R549: the shutdowns of the last 24 h, this one among them. -/
def State.thermalShutdown (s : State) : State :=
  let ms := s.sac.ms
  let s := s.modDerate (fun d => { d with shutdown := true, shutdowns := d.shutdowns.filter (fun t => decide (ms < t + 86400000)) ++ [ms] })
  ((s.powerCycle 8).setLdrv).log .thermalShutdown 2

/-- R458, R545, R549: TEMPERATURE_READ, in 0.1 °C. -/
def execTemperatureRead (sac : Vector Int 2) (nave : Vector Int 8) (s : State) : Out :=
  if ¬ s.fw then .next (if s.naveUp then s.sacEvent 10 else s)
  else
    let nt : Vector (Option Int) 8 := nave.map (fun t => if s.naveUp && sensorOk t then some t else none)
    let bad := (List.range 8).filter (fun i => s.naveUp && !sensorOk (vget nave i 0) && !bit s.sac.badSensors i)
    let tj : Int := nt.toList.foldl (fun m t => match t with | some t => max m t | none => m) (max (vget sac 0 0) (vget sac 1 0))
    let s := { s with sac := { s.sac with
      sacTemp := sac
      naveTemp := nt
      tjmax := tj
      badSensors := bad.foldl (fun w i => putBit w i true) s.sac.badSensors
      derate := if sac.toList.any (fun t => decide (1100 ≤ t)) then { s.sac.derate with hotAt := s.sac.ms } else s.sac.derate } }
    let s := if s.naveUp then s.sacEvent 10 else s
    let s : State := bad.foldl (fun s i => s.log .badSensor 1 i) s
    .next (if tj ≥ 1280 ∧ s.power.railsUp then s.thermalShutdown else s)

/-- R549: the wait after a shutdown in ms: 1 h after the third one within 24 h, else 60 s. -/
def Derate.waitMs (d : Derate) : Nat := if 3 ≤ d.shutdowns.length then 3600000 else 60000

/-- R549: THERMAL_RESTART: the wait has passed, and for ten seconds both Sacristy sensors have read below 110 °C. -/
def execThermalRestart (s : State) : Out :=
  let d := s.sac.derate
  if d.shutdown ∧ s.sac.sacTemp.toList.all (fun t => decide (t < 1100)) ∧ d.hotAt + 10000 ≤ s.sac.ms ∧
      d.shutdowns.getLastD 0 + d.waitMs ≤ s.sac.ms then
    .next (s.modDerate (fun d => { d with shutdown := false, startAtD3 := true }))
  else .next s

/-- R548: AGEING_MEASUREMENT, every hour; the last 24 count. -/
def execAgeingMeasurement (slowdown : Nat) (s : State) : Out :=
  .next (if s.fw then s.modDerate (fun d => { d with ageing := (slowdown :: d.ageing).take 24 }) else s)

/-- R548: the next level whose lane rate is below a rate. -/
def levelBelow (rate : Nat) : Option (BitVec 2) := if rate = 3 then some 2 else if rate = 2 then some 3 else none

/-- R548: LANE_EYE_MEASUREMENT, every second, of each ring lane in service. -/
def execLaneEyeMeasurement (margin : Vector Nat 4) (s : State) : Out :=
  if ¬ s.fw then .next s
  else
    let on := fun (n : Fin 4) => (s.ring.lanes[n]).state == .inService
    let low := Vector.ofFn (fun (n : Fin 4) => if on n && decide (margin[n] < 20) then s.sac.derate.eyeLow[n] + 1 else 0)
    let high := Vector.ofFn (fun (n : Fin 4) => if on n && decide (25 ≤ margin[n]) then s.sac.derate.eyeHigh[n] + 1 else 0)
    let req := Vector.ofFn (fun (n : Fin 4) =>
      let r := (s.ring.lanes[n]).rate
      let old := match s.sac.derate.eyeReq[n] with
        | some (l, r0) => if high[n] ≥ 3600 ∨ (on n ∧ r.toNat < r0.toNat) then none else some (l, r0)
        | none => none
      if low[n] ≥ 60 then (match levelBelow r.toNat with | some l => some (l, r) | none => old) else old)
    .next (s.modDerate (fun d => { d with eyeLow := low, eyeHigh := high, eyeReq := req }))

end Sys2Proof.Machine
end

