-- ==== Sys2Proof/Machine/Flash.lean ====
section
/-!
DEFINITION. Sys2Proof/Machine/Flash.lean: the flash controllers' commands and registers, reads through the windows, the
scrubber and the Nave's flash services (R485 to R501).
-/
namespace Sys2Proof.Machine

/-! ## Commands of the controllers (R487, R490 to R494) -/

/-- A command ends at the controller: RESULT, DONE, Sacristy event 7. -/
def State.flEnd (s : State) (a res : Nat) : State := ((s.setField (aFl a 8) 7 4 res).hwSet (aFl a 8) 2).sacEvent 7

/-- R490, R493, R494: a command begins: FL_ADDR names its first word, and an erase first records itself in the headers of its
sectors. -/
def State.flBegin (s : State) (a : Nat) (c : FlCmd) : State :=
  (s.setField (aFl a 4) 22 5 c.word).modAisle a (fun f =>
    let f := { f with cmd := some c, susp := false }
    (List.range (FlCmd.sectors c).2).foldl (fun f i =>
      let k := (FlCmd.sectors c).1 + i
      { f with hdrs := AMap.set f.hdrs k { (f.hdr k) with incomplete := true } }) f)

/-- R500: an operation is begun, or waits for the aisle. -/
def State.flQueue (s : State) (a : Nat) (c : FlCmd) : State :=
  if (s.aisle a).cmd.isSome then s.modAisle a (fun f => { f with queue := f.queue ++ [c] }) else s.flBegin a c

/-- FL_PAGE_BUF's word for a word of the aisle. -/
def State.pageWord (s : State) (a w : Nat) : BitVec 256 :=
  BitVec.ofNat 256 (ofBytes ((List.range 8).flatMap (fun i => toBytes 4 (s.reg (aFl a (0x100 + 32 * (w % 8) + 4 * i))).toNat)))

/-- R487, R495: a word takes data: it is erased, or it holds the same data, whose cells take charge once more. -/
def FlashAisle.takes (f : FlashAisle) (w : Nat) (d : BitVec 256) : Bool :=
  f.word w == none || f.word w == some (.programmed d)

/-- Why a command ends at once: ADDRESS, INCOMPLETE or NOT_ERASED (R487, R490, R493); `d` is the data of a PROGRAM. -/
def FlashAisle.refuses (f : FlashAisle) (op : FlOp) (w n : Nat) (d : List (BitVec 256)) : Option Nat :=
  match op with
  | .eraseSector | .eraseBlock => none
  | _ =>
    if w % 8 + n > 8 then some 5
    else if (f.hdr (w / 128)).incomplete then some 3
    else if op = .program ∧ ¬ (List.range n).all (fun i => f.takes (w + i) (d.getD i 0)) then some 2
    else none

/-- R490: GO: FL_ADDR names the first word; ignored while BUSY. -/
def State.flGo (s : State) (a : Nat) (op : FlOp) (nwords mode : Nat) : State :=
  if (s.aisle a).cmd.isSome then s
  else
    let w := s.field (aFl a 4) 22 5
    let n := nwords + 1
    let d := if op = .program then (List.range n).map (fun i => s.pageWord a (w + i)) else []
    let s := s.setField (aFl a 8) 23 16 0
    match (s.aisle a).refuses op w n d with
    | some r => s.flEnd a r
    | none => s.flBegin a { op := op, word := w, n := n, mode := BitVec.ofNat 2 mode, data := d, nave := none, rest := [] }

/-- FL_CMD's number of a command. -/
def FlOp.code : FlOp → Nat
  | .program => 1
  | .zero => 2
  | .eraseSector => 3
  | .eraseBlock => 4
  | .mread => 5

/-- A write of FL_CMD with GO for a command. -/
def State.flCommand (s : State) (a : Nat) (op : FlOp) (nwords mode : Nat) : State :=
  let s := s.store (aFl a 0) (BitVec.ofNat 32 (op.code + 16 * nwords + 256 * mode))
  s.flGo a op nwords (s.field (aFl a 0) 9 8)

/-- PROGRAM. -/
def execProgram (a : Aisle) (nwords : BitVec 3) (s : State) : Out := .next (s.flCommand a.val .program nwords.toNat 0)
/-- ZERO. -/
def execZero (a : Aisle) (nwords : BitVec 3) (s : State) : Out := .next (s.flCommand a.val .zero nwords.toNat 0)
/-- ERASE_SECTOR. -/
def execEraseSector (a : Aisle) (s : State) : Out := .next (s.flCommand a.val .eraseSector 0 0)
/-- ERASE_BLOCK. -/
def execEraseBlock (a : Aisle) (s : State) : Out := .next (s.flCommand a.val .eraseBlock 0 0)
/-- MREAD. -/
def execMread (a : Aisle) (nwords : BitVec 3) (mode : BitVec 2) (s : State) : Out :=
  .next (s.flCommand a.val .mread nwords.toNat mode.toNat)

/-- What a command has done to the aisle when it ends, and its RESULT. An erase whose verification does not pass leaves
its sectors incomplete (R493) and ends with MARGIN_FAIL (DEDUCED, log 17). -/
def FlashAisle.finish (f : FlashAisle) (c : FlCmd) (fails : BitVec 8) (verified : Bool) : FlashAisle × Nat :=
  match c.op with
  | .program => (f.progs c.word c.data, 0)
  | .zero => ((List.range c.n).foldl (fun f i => f.zero (c.word + i)) f, 0)
  | .mread => (f, if bits fails (c.n - 1) 0 = 0 then 0 else 1)
  | _ => if verified then (f.eraseSectors (FlCmd.sectors c).1 (FlCmd.sectors c).2, 0) else (f, 1)

/-- R498: the pages of a Nave program that follow the one done. -/
def FlCmd.next (c : FlCmd) : Option FlCmd :=
  match c.rest with
  | [] => none
  | r => some { c with word := c.word + c.n, n := min 8 r.length, data := r.take 8, rest := r.drop 8 }

/-- R500: the next waiting operation begins. -/
def State.flNext (s : State) (a : Nat) : State :=
  if (s.aisle a).cmd.isSome then s
  else match (s.aisle a).queue with
    | [] => s
    | c :: q => (s.modAisle a (fun f => { f with queue := q })).flBegin a c

/-- R490, R498, R500: FLASH_COMMAND_DONE: the command of an aisle ends; a Nave request is answered with its last
command; what waits for the aisle follows. -/
def execFlashCommandDone (a : Aisle) (fails : BitVec 8) (verified : Bool) (s : State) : Out :=
  let f := s.aisle a.val
  match f.cmd with
  | none => .next s
  | some c =>
    if f.susp then .next s
    else
      let (f, res) := { f with cmd := none }.finish c fails verified
      let s := (s.modAisle a.val (fun _ => f)).flEnd a.val res
      let s := if c.op = FlOp.mread then s.setField (aFl a.val 8) 23 16 (bits fails (c.n - 1) 0) else s
      let s := match c.next, c.nave with
        | some d, _ => if res = 0 then s.flBegin a.val d else s
        | none, none => s
        | none, some (i, tag) => s.answerSlot i.val (if c.op = FlOp.program then 0x41 else 0x42) tag (if res = 0 then 0 else 5)
      let s := s.flNext a.val
      .next (if a = 0 then s.logFlush else s)

/-- R491: ERASE_RESUME: the suspended erase runs on. -/
def execEraseResume (a : Aisle) (s : State) : Out := .next (s.modAisle a.val (fun f => { f with susp := false }))

/-! ## Reads (R486, R491, R492) -/

/-- R486, R491: a read of n bytes at an aisle offset: it suspends an erase, counts corrected and uncorrectable words, marks the
corrected ones for the scrubber (R496), and answers none when a word is uncorrectable. -/
def State.flashRead (s : State) (a off n : Nat) : Option (List Byte) × State :=
  let f := s.aisle a
  let erasing : Bool := match f.cmd with
    | some c => c.op == .eraseSector || c.op == .eraseBlock
    | none => false
  let ws := (flashWords off n).filter (fun w => !f.sectorDark (w / 128))
  let bad := (ws.filter (fun w => f.word w == some .uncorrectable)).length
  let data := fun (w : Nat) => match f.word w with | some (.programmed _) => true | _ => false
  let weak := ws.filter (fun w => data w && (f.weak.contains w || Config.bitErrors a w s.tt.sac))
  let fresh := weak.filter (fun w => !f.weak.contains w)
  let s := if erasing then s.modAisle a (fun f => { f with susp := true }) else s
  let s := if fresh = [] then s else s.modAisle a (fun f => { f with weak := f.weak ++ fresh })
  (f.read off n, (s.count (aFl a 0x20) bad).count (aFl a 0x18) weak.length)

/-- The word that a flash controller register reads. -/
def State.flView (s : State) (a off : Nat) : W32 :=
  let raw := s.reg (aFl a off)
  if off = 8 then putBit (putBit raw 2 (s.aisle a).susp) 0 (s.aisle a).cmd.isSome
  else if off = 0x10 then
    let h := (s.aisle a).hdr (s.field (aFl a 0xC) 10 0)
    putBit (BitVec.ofNat 32 (min h.count 131071)) 31 h.incomplete
  else raw

/-- A write of a flash controller register. -/
def State.flWrite (s : State) (a off : Nat) (d : W32) : State :=
  let s1 := s.store (aFl a off) d
  if off = 0 ∧ bit d 31 then
    let go := fun (op : FlOp) => s1.flGo a op (s1.field (aFl a 0) 6 4) (s1.field (aFl a 0) 9 8)
    match s1.field (aFl a 0) 3 0 with
    | 1 => go .program
    | 2 => go .zero
    | 3 => go .eraseSector
    | 4 => go .eraseBlock
    | 5 => go .mread
    | _ => s1
  else s1

/-! ## The scrubber (R496, R497) -/

/-- R497: a sector is rewritten through the other aisle's scrub spare and descriptor, the words of `bad` left erased. -/
def State.rewriteSector (s : State) (a k : Nat) (bad : Nat → Bool) : State :=
  s.rewriteFrom a k (((s.aisle a).words.filter (fun p => p.1 / 128 = k)).filter (fun p => !bad (p.1 % 128)))

/-- R496: FLASH_SCRUB_SECTOR: one sector of an aisle that has no command: weak words are programmed again; what still
fails, an erased cell that fails and an uncorrectable word have the sector rewritten; each uncorrectable word is
recorded. The pass ends with the aisle's last sector (R548). -/
def execFlashScrubSector (a : Aisle) (sector : Fin 2048) (weak still bad : BitVec 128) (erasedFail : Bool) (s : State) : Out :=
  let k := sector.val
  let f := s.aisle a.val
  if ¬ s.fw ∨ f.cmd.isSome then .next s
  else
    let isBad := fun (i : Nat) => (f.word (128 * k + i)).isSome && (bit bad i || f.word (128 * k + i) == some .uncorrectable)
    let isWeak := fun (i : Nat) => !isBad i && (bit weak i || f.weak.contains (128 * k + i)) &&
      (match f.word (128 * k + i) with | some (.programmed _) => true | _ => false)
    let n := ((List.range 128).filter isWeak).length
    let fails := (List.range 128).any (fun i => isWeak i && bit still i)
    let bads := (List.range 128).filter isBad
    let dark := (f.hdr k).incomplete
    let s := if dark then s else s.modAisle a.val (fun f => { f with
      scrubbed := f.scrubbed + n
      weak := f.weak.filter (fun w => w / 128 ≠ k) })
    let s := if dark ∨ ¬ (fails ∨ erasedFail ∨ bads ≠ []) then s
      else if f.mayErase k then s.rewriteSector a.val k isBad
      else s.log .wornOut 2 k
    let s := if dark then s else bads.foldl (fun s i => s.log .badWord 2 (128 * k + i)) s
    let s := if k = 2047 then s.modAisle a.val (fun f => { f with lastPass := f.scrubbed, scrubbed := 0 }) else s
    .next s

/-! ## The Nave's services (R498, R499) -/

/-- R498: the aisle and the aisle offset of a region offset. -/
def regionAt (r : Nat) : Nat × Nat := if r < 0x200000 then (0, 0x600000 + r) else (1, 0x400000 + r)

/-- R498: a Nave flash request is outstanding. -/
def State.flBusy (s : State) : Bool :=
  s.sac.flash.toList.any (fun f => f.cmd.any (fun c => c.nave.isSome) || f.queue.any (fun c => c.nave.isSome))

/-- R498: FL_INFO: the region's size and its incomplete sectors. -/
def execFlInfo (i : Fin 16) (s : State) : Out :=
  .next (s.serve i 0x40 (fun _ _ s =>
    let n := s.sac.flash.toList.foldl (fun m f => m + (f.hdrs.filter (fun p => decide (0x600 ≤ p.1) && p.2.incomplete)).length) 0
    (some (0, toBytes 4 0x400000 ++ toBytes 4 n), s)))

/-- R498: FL_PROGRAM; BUSY is judged first, then the region, then the fields (DESIGN CHOICE, log 17). -/
def execFlProgram (i : Fin 16) (s : State) : Out :=
  .next (s.serve i 0x41 (fun m tag s =>
    let r := leField m 4 4
    let off := leField m 8 2
    let len := leField m 10 2
    let (a, o) := regionAt r
    let f := s.aisle a
    if s.flBusy then (some (4, []), s)
    else if 0x400000 < r + len ∨ 0x400000 ≤ r then (some (3, []), s)
    else if r % 32 ≠ 0 ∨ off % 32 ≠ 0 ∨ len % 32 ≠ 0 ∨ len < 32 ∨ 4096 < len ∨ 4096 < r % 4096 + len ∨ ¬ windowOk off len then
      (some (2, []), s)
    else if (f.hdr (o / 4096)).incomplete then (some (5, []), s)
    else if (List.range (len / 32)).any (fun j => (f.word (o / 32 + j)).isSome) then (some (2, []), s)
    else
      let ws := wordsOf (len / 32) (s.winRead off len)
      let n := min (8 - o / 32 % 8) ws.length
      (none, s.flQueue a { op := .program, word := o / 32, n := n, mode := 0, data := ws.take n, nave := some (i, tag), rest := ws.drop n })))

/-- R498, R501: FL_ERASE. -/
def execFlErase (i : Fin 16) (s : State) : Out :=
  .next (s.serve i 0x42 (fun m tag s =>
    let r := leField m 4 4
    let blk := leField m 8 1
    let (a, o) := regionAt r
    let n := if blk = 1 then 16 else 1
    if s.flBusy then (some (4, []), s)
    else if 0x400000 ≤ r then (some (3, []), s)
    else if r % 4096 ≠ 0 ∨ 1 < blk ∨ (blk = 1 ∧ r % 65536 ≠ 0) then (some (2, []), s)
    else if (List.range n).any (fun j => !(s.aisle a).mayErase (o / 4096 + j)) then (some (3, []), s.log .wornOut 2 (o / 4096))
    else
      (none, s.flQueue a { op := if blk = 1 then .eraseBlock else .eraseSector, word := o / 32, n := 1, mode := 0, data := [],
                           nave := some (i, tag), rest := [] })))

/-- R498: FL_WEAR. -/
def execFlWear (i : Fin 16) (s : State) : Out :=
  .next (s.serve i 0x43 (fun m _ s =>
    let r := leField m 4 4
    let (a, o) := regionAt r
    let h := (s.aisle a).hdr (o / 4096)
    if 0x400000 ≤ r then (some (3, []), s)
    else if r % 4096 ≠ 0 then (some (2, []), s)
    else (some (0, toBytes 4 h.count ++ [BitVec.ofNat 8 h.incomplete.toNat]), s)))

end Sys2Proof.Machine
end

