-- ==== Sys2Proof/Machine/Screen.lean ====
section
/-!
DEFINITION. Sys2Proof/Machine/Screen.lean: the Screen (R281 to R298), the targets of the physical address map (R27, R29),
the errors of stored data and tags (R307 to R311), and the accesses that initiators other than the cores make.
-/
namespace Sys2Proof.Machine

/-- Who makes an access: its class (R281) and the number that names the initiator for R292 (cores 0 to 3, others
8 plus the class). -/
structure Who where
  /-- Class 0 to 7. -/
  cls : Nat
  /-- Initiator. -/
  ini : Nat
deriving DecidableEq, Repr

/-- A core's access, in user or in supervisor class. -/
def Who.core (c : Nat) (user : Bool) : Who := ⟨if user then 0 else 1, c⟩
/-- An access of another class. -/
def Who.dev (cls : Nat) : Who := ⟨cls, 8 + cls⟩

/-- The kinds of access of R284. -/
inductive AccKind where
  | load | store | atomic | fetch
deriving DecidableEq, Repr

/-- ACCESS of SCR_LOG_INFO and of DETAIL. -/
def AccKind.code : AccKind → Nat
  | .load => 0
  | .store | .atomic => 1
  | .fetch => 2

/-! ## Rules (R283 to R292) -/

/-- The values of one rule. -/
structure RuleVal where
  /-- BASE. -/
  base : W32
  /-- LIMIT. -/
  limit : W32
  /-- RIGHTS. -/
  rights : W32
  /-- ATTR. -/
  attr : W32
deriving DecidableEq, Repr

/-- The committed values of rule n. -/
def State.ruleNow (s : State) (n : Nat) : RuleVal :=
  ⟨s.reg (aScrBase n), s.reg (aScrLimit n), s.reg (aScrRights n), s.reg (aScrAttr n)⟩

/-- R292: the values that a check of an initiator uses: those before the oldest commit that it has not yet met. -/
def State.rule (s : State) (ini n : Nat) : RuleVal :=
  match s.screen.old.find? (fun p => p.1 == n && !p.2.newSeen.contains ini) with
  | some (_, o) => ⟨o.base, o.limit, o.rights, o.attr⟩
  | none => s.ruleNow n

/-- R292: before a check, each commit not yet in effect either reaches the initiator or does not (log 10). -/
def State.screenMeet (s : State) (ini : Nat) : State :=
  let f := fun (acc : List (Nat × OldRule) × Nat) (p : Nat × OldRule) =>
    if p.2.newSeen.contains ini then (acc.1 ++ [p], acc.2)
    else (acc.1 ++ [if Config.freeBool acc.2 then (p.1, { p.2 with newSeen := p.2.newSeen ++ [ini] }) else p], acc.2 + 1)
  let r := s.screen.old.foldl f ([], s.freeCtr)
  { s with screen := { s.screen with old := r.1 }, freeCtr := r.2 }

/-- R288: the rights of the sealed rule by life-cycle state. -/
def State.sealedRights (s : State) : W32 := if s.sac.life = .manufacture then 0x6800C0 else 0x800C0

/-- EN of a rule. -/
def RuleVal.en (r : RuleVal) : Bool := bit r.attr 8
/-- SEALED of a rule. -/
def RuleVal.sealed (r : RuleVal) : Bool := bit r.attr 9
/-- R283: an enabled rule covers a granule. -/
def RuleVal.covers (r : RuleVal) (g : Nat) : Bool := r.en && decide (r.base.toNat ≤ g ∧ g ≤ r.limit.toNat)

/-- R287: the range of the sealed rule touches n bytes from an address (R282, R137, R303). -/
def State.touchesSealed (s : State) (pa n : Nat) : Bool :=
  let r := s.ruleNow 31
  r.sealed && r.en && decide (n > 0 ∧ r.base.toNat ≤ (pa + n - 1) / 4096 ∧ pa / 4096 ≤ r.limit.toNat ∧ r.base.toNat ≤ r.limit.toNat)

/-- R284: whether rights admit a class to a kind of access. -/
def rightsAdmit (rights : W32) (cls : Nat) (k : AccKind) : Bool :=
  match k with
  | .load => bit rights (3 * cls)
  | .store => bit rights (3 * cls + 1)
  | .atomic => bit rights (3 * cls) && bit rights (3 * cls + 1)
  | .fetch => bit rights (3 * cls + 2)

/-- What the Screen decides (R285, R294). -/
structure Verdict where
  /-- Admitted. -/
  ok : Bool
  /-- The deciding rule (R298). -/
  rule : Nat
  /-- No rule matched. -/
  noMatch : Bool
  /-- Refused for overlap. -/
  overlap : Bool
  /-- The rule's ATTR. -/
  attr : BitVec 3
  /-- R294: that ATTR is delivered in place of the leaf's. -/
  force : Bool
deriving DecidableEq, Repr

/-- A verdict by one rule. -/
def RuleVal.verdict (r : RuleVal) (n : Nat) (rights : W32) (cls : Nat) (k : AccKind) : Verdict :=
  ⟨rightsAdmit rights cls k, n, false, false, r.attr.extractLsb' 0 3, bit r.attr 3⟩

/-- R285: the decision. -/
def State.screenDecide (s : State) (who : Who) (pa : Nat) (k : AccKind) : Verdict :=
  let g := pa / 4096
  let r31 := s.rule who.ini 31
  if r31.sealed && r31.covers g then r31.verdict 31 s.sealedRights who.cls k
  else
    match (List.range 32).filter (fun n => (s.rule who.ini n).covers g) with
    | [] => ⟨rightsAdmit (s.reg aScrDefault) who.cls k, 0, true, false, 0, true⟩
    | n :: more =>
      let r := s.rule who.ini n
      if s.flag aScrCtrl 0 ∧ more ≠ [] then ⟨false, n, false, true, 0, false⟩
      else r.verdict n r.rights who.cls k

/-- R298, R243: the fields that SCR_LOG_INFO and DETAIL share. -/
def Verdict.info (v : Verdict) (cls : Nat) (k : AccKind) (part2 : Bool) : Nat :=
  v.overlap.toNat * 0x400000 + v.noMatch.toNat * 0x200000 + (if v.noMatch then 0 else v.rule * 0x10000) + cls * 0x400 +
    part2.toNat * 0x100 + k.code * 0x40

/-- R297, R298: a refusal is counted, logged when the log has room, and told to the Sacristy when it made the access. -/
def State.screenRefuse (s : State) (who : Who) (pa : Nat) (info : Nat) : State :=
  let s := s.count aScrDeny
  let s := if s.screen.log.length < 8 then
      ({ s with screen := { s.screen with log := s.screen.log ++ [({ addr := BitVec.ofNat 44 pa, info := BitVec.ofNat 32 (0x80000000 + info) } : ScrRec)] } }).raise 53
    else s.hwSet aScrLog 2
  if who.cls = 6 then s.log .sacRefused 1 else s

/-- R285 to R298: the check of one transaction by its first byte. -/
def State.screenCheck (s : State) (who : Who) (pa : Nat) (k : AccKind) (part2 : Bool) : Verdict × State :=
  let s := s.screenMeet who.ini
  let v := s.screenDecide who pa k
  (v, if v.ok then s else s.screenRefuse who pa (v.info who.cls k part2))

/-- R291: classes whose writes the Screen's registers accept. -/
def scrMayWrite (cls : Nat) : Bool := cls == 1 || cls == 6

/-- R288, R290: rule n takes no write. -/
def State.ruleLocked (s : State) (n : Nat) : Bool := s.flag (aScrAttr n) 16 || (s.flag (aScrAttr n) 9 && n == 31)

/-- R289, R290, R13: the commit of rule n with the ATTR word d. -/
def State.scrCommit (s : State) (n : Nat) (d : W32) : State :=
  if s.ruleLocked n then s
  else
    let r := s.ruleNow n
    let a := if bits d 2 0 ≤ 3 then putBits r.attr 2 0 (bits d 2 0) else r.attr
    let a := putBit (putBit (putBit a 3 (bit d 3)) 8 (bit d 8)) 16 (bit d 16)
    let old : OldRule := { base := r.base, limit := r.limit, rights := r.rights, attr := r.attr, newSeen := [] }
    let s := { s with screen := { s.screen with old := s.screen.old ++ [(n, old)] } }
    (((s.setReg (aScrBase n) (vget s.screen.pendBase n 0)).setReg (aScrLimit n) (vget s.screen.pendLimit n 0)).setReg
      (aScrRights n) (vget s.screen.pendRights n 0)).setReg (aScrAttr n) a

/-- R289: a write of BASE, LIMIT or RIGHTS goes to the pending copy. -/
def State.scrPend (s : State) (n k : Nat) (d : W32) : State :=
  if s.ruleLocked n then s
  else match k with
    | 0 => { s with screen := { s.screen with pendBase := vset s.screen.pendBase n d } }
    | 1 => { s with screen := { s.screen with pendLimit := vset s.screen.pendLimit n d } }
    | _ => { s with screen := { s.screen with pendRights := vset s.screen.pendRights n (d &&& 0xFFFFFF) } }

/-- R298: POP. -/
def State.scrPop (s : State) : State := { s with screen := { s.screen with log := s.screen.log.drop 1 } }

/-- R286: the first STSTART that makes a stall READY sets MLOCK and DLOCK. -/
def State.lockScreen (s : State) : State := s.orReg aScrCtrl 6

/-- The word that a Screen register reads. -/
def State.scrView (s : State) (off : Nat) : W32 :=
  let raw := s.reg (0x20030000 + off)
  let first := s.screen.log.head?
  if off = 0x10 then (match first with | some r => r.addr.truncate 32 | none => 0)
  else if off = 0x14 then (match first with | some r => (r.addr >>> 32).truncate 32 | none => 0)
  else if off = 0x18 then (match first with | some r => r.info | none => 0)
  else if off = 0x1C then putBits raw 11 8 s.screen.log.length
  else if off = 0x2F8 then (if s.flag (aScrAttr 31) 9 then s.sealedRights else raw)
  else raw

/-- A write of a Screen register by a class (R286, R289, R291). -/
def State.scrWrite (s : State) (cls off : Nat) (d : W32) : State :=
  if ¬ scrMayWrite cls then s
  else if 0x100 ≤ off ∧ off < 0x300 then
    let n := (off - 0x100) / 16
    if off % 16 = 12 then s.scrCommit n d else s.scrPend n (off % 16 / 4) d
  else if off = 4 then (if s.flag aScrCtrl 2 then s else s.store (0x20030004) d)
  else if off = 0x1C then
    let s := s.store (0x2003001C) d
    if bit d 0 then s.scrPop else s
  else s.store (0x20030000 + off) d

/-! ## Memory errors (R307 to R311) -/

/-- R310: an error is counted and recorded; a corrected one raises event 49, an uncorrectable one is told to the Sacristy. -/
def State.memError (s : State) (addr source : Nat) (ue scrub : Bool) (core : Nat := 0) : State :=
  let info := ue.toNat * 0x40000000 + core * 0x20 + scrub.toNat * 0x10 + source
  let take := fun (s : State) =>
    (s.setPair aMemErrAddr (BitVec.ofNat 64 addr)).modReg aMemErrInfo
      (fun w => BitVec.ofNat 32 (0x80000000 + (bit w 29).toNat * 0x20000000 + info))
  if ue then (take (s.count aMemUe)).log .memUncorrectable 2
  else
    let s := s.count aMemCe
    let s := if s.flag aMemErrInfo 31 then s.hwSet aMemErrInfo 0x20000000 else take s
    s.raise 49

/-- R307: the key of the unit of storage that holds an address: a granule of Close SRAM or a line of DRAM, and its size. -/
def storeUnit (pa : Nat) : Nat × Nat := if pa < aDram then (pa / 16, 16) else (pa / 64, 64)

/-- A unit of storage is poisoned. -/
def State.poisoned (s : State) (pa : Nat) : Bool :=
  if pa < aDram then s.mem.poisonGranules.contains (pa / 16) else s.mem.poisonLines.contains (pa / 64)

/-- R307: a unit of storage becomes poisoned. -/
def State.poison (s : State) (pa : Nat) : State :=
  if pa < aDram then
    ({ s with mem := { s.mem with poisonGranules := insertNat s.mem.poisonGranules (pa / 16) } }).setTag pa false
  else { s with mem := { s.mem with poisonLines := insertNat s.mem.poisonLines (pa / 64) } }

/-- R307: the tags of the 512 granules of a DRAM tag line are written as 0; a line that the L2 holds newer than its tag line keeps the
tags that the L2 holds (R129). -/
def State.dropTagLine (s : State) (pa : Nat) : State :=
  (List.range 128).foldl (fun s k =>
    let line := pa / 8192 * 128 + k
    if s.caches.l2.any (fun x => x.line == line && x.dirty) then s else s.clearTags (64 * line) 64) s

/-- R307, R310: an error is met by an access, by the scrubber or at a write-back. -/
def State.meetError (s : State) (pa : Nat) (e : MemErr) (scrub : Bool) (core : Nat) : State :=
  let u := storeUnit pa
  let src := e.source.toNat
  if src = 4 then
    let s := s.memError (pa / 8192 * 8192) 4 e.ue scrub
    if e.ue then s.dropTagLine pa else s
  else if ¬ e.ue then s.memError (u.1 * u.2) src false scrub core
  else if src ≤ 1 ∨ src = 7 then s
  else
    let s := (s.memError (u.1 * u.2) src true scrub).poison pa
    if src = 3 then s.clearTags (pa / 64 * 64) 64 else s

/-- R307: the first bytes of the units of storage that n bytes touch. -/
def storeUnits (pa n : Nat) : List Nat :=
  let sz := (storeUnit pa).2
  (List.range ((pa + n + sz - 1) / sz - pa / sz)).map (fun i => (pa / sz + i) * sz)

/-- An error is met: it lies in its store no longer. -/
def State.dropLatent (s : State) (p : Nat × MemErr) : State :=
  { s with mem := { s.mem with latent := s.mem.latent.filter (fun q => q ≠ p) } }

/-- R307: the errors of a unit of storage, in the copies that an access reads: the L2's where the L2 holds the line (R311), else those
of the store itself and of its tag line. -/
def State.errorsAt (s : State) (a : Nat) : List (Nat × MemErr) :=
  let k := (storeUnit a).1
  s.mem.latent.filter (fun p => p.1 == k &&
    (if a < aDram then p.2.source == 6
     else if inCache s.caches.l2 k then p.2.source == 2 || p.2.source == 3
     else p.2.source == 4 || p.2.source == 5))

/-- R307: errors of a first-level cache that an access hits: each is counted, and the line is fetched again. -/
def State.meetFirst (s : State) (u : Use) (lines : List Nat) : State :=
  match s.firstLevel u with
  | none => s
  | some l =>
    (s.mem.latent.filter (fun p => p.2.source.toNat == l.2 && lines.contains p.1 && inCache l.1 p.1)).foldl (fun s p =>
      let c := u.core.getD 0
      let s := (s.dropLatent p).meetError (64 * p.1) ⟨p.2.source, false⟩ false c
      { s with caches := if u.fetch then { s.caches with l1i := vmod s.caches.l1i c (fun l => cacheDrop l p.1) }
                         else { s.caches with l1d := vmod s.caches.l1d c (fun l => cacheDrop l p.1) } }) s

/-- R310: errors met in one access have no order: where some are corrected and some are not, which come first is a free choice
(log 35). -/
def State.orderErrors (s : State) (es : List (Nat × MemErr)) : List (Nat × MemErr) × State :=
  if es.any (fun p => p.2.ue) && es.any (fun p => !p.2.ue) then
    (if Config.freeBool s.freeCtr then es.filter (fun p => p.2.ue) ++ es.filter (fun p => !p.2.ue)
     else es.filter (fun p => !p.2.ue) ++ es.filter (fun p => p.2.ue), { s with freeCtr := s.freeCtr + 1 })
  else (es, s)

/-- R308: a read of n bytes within 4 KiB of Close SRAM or DRAM meets the errors that lie there: kind 4 for an uncorrectable tag line,
which is read where the L2 does not hold the line, kind 3 for poison. A first-level cache serves what it holds. -/
def State.meetErrors (s : State) (u : Use) (pa n : Nat) : Option Nat × State :=
  let s := s.meetFirst u (linesOf pa n)
  let units := (storeUnits pa n).filter (fun a => !s.hitsL1 u (a / 64))
  let tagOut := s.mem.latentTags.contains (pa / 8192) && units.any (fun a => decide (aDram ≤ a) && !inCache s.caches.l2 (a / 64))
  let here := units.flatMap (fun a => s.errorsAt a)
  let tagBad := tagOut || here.any (fun p => p.2.source == 4 && p.2.ue)
  let tagErr : List (Nat × MemErr) := if tagOut then [((storeUnit pa).1, ⟨4, true⟩)] else []
  let es := s.orderErrors (tagErr ++ here)
  let s := es.2
  let s := { s with mem := { s.mem with
    latentTags := if tagOut then s.mem.latentTags.filter (fun k => k ≠ pa / 8192) else s.mem.latentTags } }
  let s := es.1.foldl (fun s p => (s.dropLatent p).meetError (p.1 * (storeUnit pa).2) p.2 false 0) s
  (if tagBad then some 4
   else if (storeUnits pa n).any (fun a => s.poisoned a && !(u.fetch && s.hitsL1 u (a / 64))) then some 3 else none, s)

/-- R309: a write that covers a whole unit of storage leaves no poison there and no error of what it overwrites. -/
def State.clearPoison (s : State) (pa n : Nat) : State :=
  let whole := (storeUnits pa n).filter (fun a => decide (pa ≤ a ∧ a + (storeUnit pa).2 ≤ pa + n))
  let keep := fun (p : Nat × MemErr) => p.2.source == 0 || p.2.source == 4 || !whole.contains (p.1 * (storeUnit pa).2)
  let s := { s with mem := { s.mem with latent := s.mem.latent.filter keep } }
  if pa < aDram then
    { s with mem := { s.mem with poisonGranules := s.mem.poisonGranules.filter (fun g => !whole.contains (g * 16)) } }
  else { s with mem := { s.mem with poisonLines := s.mem.poisonLines.filter (fun g => !whole.contains (g * 64)) } }

/-- R309: a write that the L2 does not take reads the tag line first: an uncorrectable one is written as 0, and no exception raised. -/
def State.writeTagLine (s : State) (pa n : Nat) : State :=
  if aDram ≤ pa ∧ s.mem.latentTags.contains (pa / 8192) ∧ s.missesL2 pa n then
    ({ s with mem := { s.mem with latentTags := s.mem.latentTags.filter (fun k => k ≠ pa / 8192) } }).meetError pa ⟨4, true⟩ false 0
  else s

/-! ## What an access leaves in the caches (R301 to R304) -/

/-- R310: the L2 gives up lines: an error in a line that it writes back is met there, and a write-back overwrites an error of the
DRAM line. -/
def State.recache (s : State) (c : Caches) : State :=
  let old := s.caches.l2
  s.mem.latent.foldl (fun s p =>
    match old.find? (fun x => x.line == p.1 && !inCache c.l2 p.1) with
    | none => s
    | some x =>
      if p.2.source = 2 ∨ p.2.source = 3 then
        let s := s.dropLatent p
        if x.dirty then s.meetError (64 * p.1) p.2 false 0 else s
      else if p.2.source = 5 ∧ x.dirty then s.dropLatent p
      else s) { s with caches := c }

/-- R303, R304: an access to a line allocates: its attribute is normal, and the line lies in no sealed range. -/
def State.allocates (s : State) (u : Use) (line : Nat) : Bool := u.normal && !s.touchesSealed (64 * line) 64

/-- R306: the lines of a granule that a prefetch takes: which is a free choice; a line with an error is left to the access that needs
it (log 35). -/
def State.prefetchMask (s : State) (line : Nat) : Nat :=
  let bad := (s.mem.latent.filter (fun p => p.1 / 64 == line / 64)).foldl (fun m p => m ||| 2 ^ (p.1 % 64)) 0
  (Config.freeWord (s.freeCtr + 1)).toNat &&& (2 ^ 64 - 1 - bad)

/-- R299 to R304: what the caches do with one line that an access reads. -/
def State.cacheLine (s : State) (u : Use) (line : Nat) : State :=
  let pick := (Config.freeWord s.freeCtr).toNat
  let dram := decide (aDram / 64 ≤ line)
  let alloc := s.allocates u line
  let mask := s.prefetchMask line
  { s.recache (match u.core, u.fetch with
      | some c, true => s.caches.fetch c line pick mask dram alloc
      | core, _ => s.caches.load core line pick mask alloc) with
      freeCtr := s.freeCtr + 2 }

/-- R299 to R304: what the caches do with n bytes that an access reads; Close SRAM is held by the L1 instruction caches alone
(R300). -/
def State.cacheRead (s : State) (u : Use) (pa n : Nat) : State :=
  if pa < aDram ∧ ¬ u.fetch then s else (linesOf pa n).foldl (fun s k => s.cacheLine u k) s

/-- R301, R302, R304: what the caches do with n bytes of DRAM that an access writes, and STATE of the check slots (R318). -/
def State.cacheWrite (s : State) (u : Use) (pa n : Nat) : State :=
  if pa < aDram then s
  else (linesOf pa n).foldl (fun s k =>
    let s := { s with mem := { s.mem with written := insertNat s.mem.written k } }
    { s.recache (s.caches.store u.core k (Config.freeWord s.freeCtr).toNat (s.prefetchMask k) (s.allocates u k)) with
        freeCtr := s.freeCtr + 2 }) s

/-! ## Targets (R27, R29) -/

/-- What lies at a physical address. -/
inductive Tgt where
  | rom | sram | regs | window
  | flash (aisle off : Nat)
  | dram
  | none
deriving DecidableEq, Repr

/-- R29, R317: a DRAM address lies in the range of a channel that is READY. -/
def State.inDram (s : State) (pa : Nat) : Bool :=
  [0, 1].any (fun c => (vget s.mem.chan c { state := .notStarted, dev := none, temp := 0 }).state == .ready &&
    decide ((s.pair (aChBase c)).toNat ≤ pa ∧ pa < (s.pair (aChBase c)).toNat + (s.pair (aChSize c)).toNat))

/-- R27, R29: the target of an address. -/
def State.target (s : State) (pa : Nat) : Tgt :=
  if pa < 0x40000 then .rom
  else if 0x10000000 ≤ pa ∧ pa < 0x10200000 then .sram
  else if (0x20000000 ≤ pa ∧ pa < 0x30000000) ∨ (0x30010000 ≤ pa ∧ pa < 0x30010800) then .regs
  else if 0x30000000 ≤ pa ∧ pa < 0x30010000 then .window
  else if 0x31000000 ≤ pa ∧ pa < 0x31800000 then .flash 0 (pa - 0x31000000)
  else if 0x31800000 ≤ pa ∧ pa < 0x32000000 then .flash 1 (pa - 0x31800000)
  else if aDram ≤ pa ∧ s.inDram pa then .dram
  else .none

/-- Close SRAM or fitted DRAM. -/
def Tgt.isMem : Tgt → Bool
  | .sram | .dram => true
  | _ => false

/-- R36, R467: the Hatch side of a target is not ready. -/
def State.hatchOff (s : State) : Bool := !s.unitReady 20

/-- A read of n bytes of any target but register space: a MACHINE_CHECK kind, or the bytes. -/
def State.readTarget (s : State) (u : Use) (pa n : Nat) : Except Nat (List Byte) × State :=
  match s.target pa with
  | .rom => (.ok ((List.range n).map (fun i => Config.bootRom (pa + i))), s)
  | .sram | .dram =>
    let r := s.meetErrors u pa n
    let s := r.2.cacheRead u pa n
    match r.1 with
    | some k => (.error k, s)
    | none => (.ok (s.readMem pa n), s)
  | .window => if s.hatchOff then (.ok (List.replicate n 0), s.hatchEarly) else (.ok (s.readMem pa n), s)
  | .flash a off =>
    if s.hatchOff then (.ok (List.replicate n 0), s.hatchEarly)
    else
      let r := s.flashRead a off n
      match r.1 with
      | some bs => (.ok bs, r.2)
      | none => (.error 3, r.2)
  | .regs => (.error 0, s)
  | .none => (.error 1, s)

/-- R125: the tags of the granules that a write covers whole: true where the write gives a tag. -/
def State.putTags (s : State) (pa : Nat) (tags : List Bool) : State :=
  (tags.zipIdx).foldl (fun s p => if p.1 then s.setTag (pa + 16 * p.2) true else s) s

/-- A write to any target but register space; `tags` gives the tags of the whole granules written, from the first.
The boot ROM and flash take no writes (R128); the telemetry page takes none from the Nave (R467). -/
def State.writeTarget (s : State) (u : Use) (pa : Nat) (bs : List Byte) (tags : List Bool) : State :=
  match s.target pa with
  | .sram | .dram =>
    let s := (s.writeTagLine pa bs.length).clearPoison pa bs.length
    ((((s.writeMem pa bs).clearTags pa bs.length).putTags pa tags)).cacheWrite u pa bs.length
  | .window =>
    if s.hatchOff then s.hatchEarly
    else s.writeMem pa (bs.take (0x3000FC00 - pa))
  | .flash _ _ => if s.hatchOff then s.hatchEarly else s
  | .rom | .regs | .none => s

/-! ## Accesses of other initiators (R29, R295 to R297) -/

/-- R296: the parts of a transfer, split at multiples of 4,096. -/
def parts (fuel pa n : Nat) : List (Nat × Nat) :=
  match fuel with
  | 0 => []
  | fuel + 1 =>
    if n = 0 then [] else
    let k := min n (4096 - pa % 4096)
    (pa, k) :: parts fuel (pa + k) (n - k)

/-- R296: the parts of a transfer of n bytes. -/
def transfer (pa n : Nat) : List (Nat × Nat) := parts (n / 4096 + 2) pa n

/-- A read by an initiator other than a core: the bytes, or none with its error status. Register space is no target of
such a transfer (log 19). -/
def State.dmaRead (s : State) (cls pa n : Nat) : Option (List Byte) × State :=
  (transfer pa n).foldl (fun acc p =>
    match acc.1 with
    | none => acc
    | some got =>
      let c := acc.2.screenCheck (Who.dev cls) p.1 .load false
      if ¬ c.1.ok then (none, c.2)
      else
        let r := c.2.readTarget .dma p.1 p.2
        match r.1 with
        | .ok bs => (some (got ++ bs), r.2)
        | .error _ => (none, r.2)) (some [], s)

/-- A write by an initiator other than a core, tags 0: whether every part was performed. -/
def State.dmaWrite (s : State) (cls pa : Nat) (bs : List Byte) : Bool × State :=
  let r := (transfer pa bs.length).foldl (fun (acc : Bool × List Byte × State) p =>
    let s := acc.2.2
    if ¬ acc.1 then acc
    else
      let c := s.screenCheck (Who.dev cls) p.1 .store false
      if ¬ c.1.ok then (false, [], c.2)
      else match c.2.target p.1 with
        | .none | .regs => (false, [], c.2)
        | _ => (true, acc.2.1.drop p.2, c.2.writeTarget .dma p.1 (acc.2.1.take p.2) [])) (true, bs, s)
  (r.1, r.2.2)

/-! ## The memory controller's registers -/

/-- MEM_CH_STATUS_c.STATE. -/
def ChState.code : ChState → Nat
  | .notStarted => 0
  | .training => 1
  | .ready => 2
  | .none => 3
  | .failed => 4
  | .parked => 5

/-- The word that a memory controller register reads. -/
def State.memView (s : State) (off : Nat) : W32 :=
  if off = 0 ∨ off = 0x20 then
    let c := vget s.mem.chan (off / 0x20) { state := .notStarted, dev := none, temp := 0 }
    let rate := if c.state = .ready then (if s.sac.derate.clocks.toNat ≤ 1 then 8533 else 4266) else 0
    let known := c.state == .ready || c.state == .failed || c.state == .parked
    let d := if known then (match c.dev with | some d => d.dens.toNat * 256 + d.ranks.toNat * 16 | none => 0) else 0
    BitVec.ofNat 32 (rate * 65536 + d + c.state.code)
  else s.reg (0x20040000 + off)

/-! ## Commands -/

/-- The class of a register access that a row makes for an initiator: a stall's class follows SYS in its PCC. -/
def State.whoIs (s : State) (w : Initiator) : Who :=
  match w with
  | .stall i => Who.core (i.val / 8) (!Cap.has (s.stall i.val).pcc permSys)
  | .debug => Who.dev 7
  | .sacristy => Who.dev 6

/-- R289: SCREEN_RULE_COMMIT. -/
def execScreenRuleCommit (who : Initiator) (n : Fin 32) (data : BitVec 32) (s : State) : Out :=
  .next (s.unitAct 18 (fun s => s.scrWrite (s.whoIs who).cls (0x10C + 16 * n.val) data))

/-- A buffered store is performed. -/
def State.perform (s : State) (i : Nat) (b : BufStore) : State :=
  s.writeTarget (.data (i / 8) b.attr) b.pa.toNat b.data [b.tag]

/-- R221, R304: the oldest buffered store of a stall is performed, with those merged with it. -/
def State.drainOne (s : State) (i : Nat) : State :=
  match (s.stall i).sbuf with
  | [] => s
  | b :: rest =>
    (b :: rest.takeWhile (fun b => b.merged)).foldl (fun s b => s.perform i b)
      (s.modStall i (fun t => { t with sbuf := rest.dropWhile (fun b => b.merged) }))

/-- R221, R225: every buffered store of a stall is performed, in order. -/
def State.drain (s : State) (i : Nat) : State := Nat.repeat (fun s => s.drainOne i) (s.stall i).sbuf.length s

/-- R292: every store that any core holds has passed its check and is performed. -/
def State.drainAll (s : State) : State := (List.range 32).foldl (fun s i => s.drain i) s

/-- R292: SCREEN_RULE_IN_EFFECT: the oldest commit of rule n is in effect for every initiator. -/
def execScreenRuleInEffect (n : Fin 32) (s : State) : Out :=
  match s.screen.old.findIdx? (fun p => p.1 == n.val) with
  | none => .next s
  | some i =>
    let s := s.drainAll
    .next { s with screen := { s.screen with old := s.screen.old.eraseIdx i } }

/-- R298: SCR_LOG_POP. -/
def execScrLogPop (who : Initiator) (s : State) : Out :=
  .next (s.unitAct 18 (fun s => if scrMayWrite (s.whoIs who).cls then s.scrPop else s))

/-- R307, R311: an error that the scrubber may find in a unit of storage: in the copy that it scrubs, or in the tag line. -/
def State.scrubFinds (s : State) (pa : Nat) (e : MemErr) : Bool :=
  let src := e.source.toNat
  if pa < aDram then src == 6
  else src == 4 || (if inCache s.caches.l2 (pa / 64) then src == 2 || src == 3 else src == 5)

/-- R311: MEMORY_SCRUB: the errors that lie in the unit of storage are met, and the one that the scrubber finds now. -/
def execMemoryScrub (pa : BitVec 44) (err : Option MemErr) (s : State) : Out :=
  let a := pa.toNat
  if ¬ (s.target a).isMem then .next s
  else
    let tagOut := decide (aDram ≤ a) && s.mem.latentTags.contains (a / 8192)
    let s := if tagOut then
        ({ s with mem := { s.mem with latentTags := s.mem.latentTags.filter (fun t => t ≠ a / 8192) } }).meetError a ⟨4, true⟩ true 0
      else s
    let s := (s.errorsAt a).foldl (fun s p => (s.dropLatent p).meetError a p.2 true 0) s
    match err with
    | none => .next s
    | some e => .next (if s.scrubFinds a e then s.meetError a e true 0 else s)

/-- R315: DRAM_REFRESH: the rank is refreshed and the temperature status read. -/
def execDramRefresh (ch : Fin 2) (_rank : Bool) (temp : BitVec 8) (s : State) : Out :=
  let f := fun (c : Chan) => if c.state = .ready then { c with temp := temp } else c
  .next { s with mem := { s.mem with chan := vmod s.mem.chan ch.val f } }

end Sys2Proof.Machine
end

