-- ==== Sys2Proof/Machine/RingOps.lean ====
section
/-!
DEFINITION. Sys2Proof/Machine/RingOps.lean: the ring switch's shared operations (chapters 12 and 13): ports and folds,
frames and their headers, insertion, credits, drops, topology causes.
-/
namespace Sys2Proof

/-! ## Frames (R333, R348, R351) -/

/-- The number of a class: 0 CTRL, 1 FAR, 2 TEN-H, 3 TEN-L. -/
def Frame.cl (f : Frame) : Nat := f.cls.toNat - 1
/-- R351: the units of a frame. -/
def Frame.units (f : Frame) : Nat := (f.length + 63) / 64
/-- A TEN frame. -/
def Frame.isTen (f : Frame) : Bool := f.cls == 3 || f.cls == 4
/-- R333: the first 14 bytes of the header. -/
def Frame.head (f : Frame) : List Byte :=
  [f.dest, f.src, BitVec.ofNat 8 f.cls.toNat, f.type] ++ Machine.toBytes 2 f.length ++
    [BitVec.ofNat 8 f.hops, BitVec.ofNat 8 (f.wrapped.toNat + 2 * f.bcast.toNat + 4 * f.noid.toNat)] ++
    Machine.toBytes 4 f.seq.toNat ++ Machine.toBytes 2 f.stamp.toNat

/-- R333: the bytes of a frame. -/
def Frame.bytes (f : Frame) : List Byte := f.head ++ Machine.toBytes 2 (Machine.crc16 f.head).toNat ++ f.payload

/-- A frame as its sender makes it, before insertion: payload padded with zeros to 64 bytes in all. -/
def Frame.make (cls : Nat) (type dest : Byte) (payload : List Byte) : Frame :=
  { dest := dest, src := 0, cls := BitVec.ofNat 3 cls, type := type, length := max 64 (16 + payload.length), hops := 0,
    wrapped := false, bcast := false, noid := false, seq := 0, stamp := 0,
    payload := payload ++ List.replicate (48 - payload.length) 0 }

end Sys2Proof

namespace Sys2Proof.Machine

/-! ## State access -/

/-- Change the ring switch. -/
def State.modRing (s : State) (f : Ring → Ring) : State := { s with ring := f s.ring }
/-- A lane. -/
def State.laneOf (s : State) (n : Nat) : Lane := vget s.ring.lanes n Lane.init
/-- A ring direction. -/
def State.dir (s : State) (d : Nat) : RingDir := vget s.ring.dirs d RingDir.init
/-- Change a ring direction. -/
def State.modDir (s : State) (d : Nat) (f : RingDir → RingDir) : State := s.modRing (fun r => { r with dirs := vmod r.dirs d f })
/-- A port. -/
def State.portOf (s : State) (p : Nat) : RPort := vget s.ring.ports p RPort.init
/-- The ring switch is in service. -/
def State.ringOn (s : State) : Bool := s.unitReady 19

/-- R344: nothing leaves on a port, which has failed or is folded; ring d leaves on port d. -/
def State.portDown (s : State) (p : Nat) : Bool := (s.portOf p).failed || (s.portOf p).folded

/-- R344: the traffic of a port is turned onto the other ring: it has folded. Between the failure and the fold it waits in its
queue. -/
def State.turned (s : State) (p : Nat) : Bool := (s.portOf p).folded

/-- The gateway that originates (R17, R339). -/
def State.master (s : State) : Bool := s.gateway && !s.ring.stopped

/-- RING_TOPO.NODES. -/
def State.topoNodes (s : State) : Nat := s.field (aRing 0x10) 24 16

/-- The number of a node that holds an ID. -/
def State.nodeNum (s : State) : Option Nat := s.ring.node.map (fun n => n.toNat)

/-! ## Counters and causes -/

/-- A ring switch counter. -/
def State.ringCount (s : State) (i : Nat) : State := s.count (aRing (0x300 + 8 * i))

/-- The drops that RING_DROP_NOTIFY sums. -/
def State.dropSum (s : State) : Nat :=
  ([8, 9, 10, 11, 13].map (fun i => (s.pair (aRing (0x300 + 8 * i))).toNat)).foldl (fun a b => a + b) 0

/-- A drop is counted; event 54 at each multiple of 2^STEP. -/
def State.ringDrop (s : State) (i : Nat) : State :=
  let s := s.ringCount i
  if s.dropSum % 2 ^ s.field (aRing 0x214) 5 0 = 0 then s.raise 54 else s

/-- A bit of RING_STATE_CAUSE is set, which raises RING_STATE. -/
def State.ringCause (s : State) (b : Nat) : State := (s.hwSet (aRing 0x28) (BitVec.ofNat 32 (2 ^ b))).raise 41

/-! ## Pools and ages (R351, R361) -/

/-- R351: the pool of a class in units. -/
def poolUnits (c : Nat) : Nat := if c = 0 then 256 else if c = 1 then 512 else 4096

/-- The units of a list of frames. -/
def unitsOf (fs : List Frame) : Nat := fs.foldl (fun a f => a + f.units) 0

/-- The frames of a queue. -/
def framesOf (q : List Queued) : List Frame := q.map Queued.frame

/-- R354: the frame of a queue that joined first. -/
def oldestQueued (q : List Queued) : Option Queued :=
  q.foldl (fun (b : Option Queued) x => match b with
    | some y => if x.ord < y.ord then some x else some y
    | none => some x) none

/-- A frame as it joins a queue now. -/
def State.queue (s : State) (f : Frame) : Queued := { frame := f, since := s.tmr.cycles, ord := s.ring.queued }
/-- A frame has joined a queue. -/
def State.joined (s : State) : State := s.modRing (fun r => { r with queued := r.queued + 1 })

/-- R361: the age of a stamp in units of 1.024 µs; 0x8000 or more is 0. -/
def State.stampAge (s : State) (stamp : BitVec 16) : Nat :=
  let a := (s.tt.now.extractLsb' 10 16 - stamp).toNat
  if a ≥ 0x8000 then 0 else a

/-- R361: the node drops a TEN-L frame by its age. -/
def State.tooOld (s : State) (f : Frame) : Bool :=
  let mx := s.field (aRing 0x20C) 15 0
  f.cls == 4 && s.ttValid && decide (mx ≠ 0) && decide (mx < s.stampAge f.stamp)

/-! ## Insertion (R349, R354) -/

/-- R349: the ring a node chooses for a destination. -/
def State.route (s : State) (f : Frame) : Nat :=
  let last := match s.ring.lastMarker with
    | some d => d.val
    | none => 0
  if f.bcast then 0
  else match s.nodeNum, s.topoNodes with
    | some me, n + 1 =>
      let d := f.dest.toNat
      let fwd := (d + (n + 1) - me % (n + 1)) % (n + 1)
      let back := (me + (n + 1) - d % (n + 1)) % (n + 1)
      if fwd ≤ back then 0 else 1
    | _, _ => last

/-- R349, R344: a frame joins the local frames of a ring, or of the other ring when its own port has folded. -/
def State.enqueueLocal (s : State) (d : Nat) (f : Frame) : State :=
  let put := fun (d : Nat) (f : Frame) =>
    (s.modDir d (fun x => { x with loc := vmod x.loc f.cl (fun q => q ++ [s.queue f]) })).joined
  if s.turned d then put (1 - d) { f with wrapped := true } else put d f

/-- R333: a frame takes SRC, SEQ of its class and STAMP. -/
def State.stampFrame (s : State) (f : Frame) : Frame × State :=
  let c := f.cl
  let f := { f with src := s.ring.node.getD 0, seq := vget s.ring.seq c 0, stamp := s.tt.now.extractLsb' 10 16 }
  (f, s.modRing (fun r => { r with seq := vmod r.seq c (fun q => q + 1) }))

/-- R335: a node without an ID inserts JOIN only. -/
def State.insert (s : State) (f : Frame) : State :=
  if s.ring.node.isNone ∧ ¬ f.noid then s
  else
    let (f, s) := s.stampFrame f
    s.enqueueLocal (s.route f) f

/-! ## The cells of a port (R320, R343) -/

/-- The lane of a port that is in service first. -/
def State.portLane (s : State) (p : Nat) : Option Nat :=
  if s.laneUp p then some p else if s.laneUp (p + 2) then some (p + 2) else none

/-- R340: D of a lane in units of 2^−6 ns: the mean of the last 64 bays' delays and ASYM. -/
def State.laneDelay (s : State) (n : Nat) : Int :=
  let ds := (s.laneOf n).delays
  let mean := if ds.isEmpty then 0 else ds.foldl (fun a b => a + b) 0 / ds.length
  (mean : Int) + ((s.reg (aLane n 0xC)).extractLsb' 0 16).toInt

/-! ## The store of a tenant frame at its port (R375, R378) -/

/-- R375: TP_STATUS.LINK. -/
def State.tpLink (s : State) (n : Nat) : Bool :=
  let t := vget s.tp n TPortState.init
  t.block && (!t.fecUsed || t.fecLock) && !t.lf

/-- R378: a TEN frame joins an egress queue of a port, or is dropped and counted. -/
def State.tenEgress (s : State) (port : Nat) (high : Bool) (eth : List Byte) : State :=
  let t := vget s.tp port TPortState.init
  let q := if high then t.egressH else t.egressL
  let held := q.foldl (fun a f => a + f.length) 0
  if ¬ s.unitReady (8 + port) ∨ ¬ s.flag (aTp port 0) 0 ∨ ¬ s.tpLink port ∨ 262144 < held + eth.length then s.ringDrop 8
  else
    let f := fun (t : TPortState) => if high then { t with egressH := t.egressH ++ [eth] } else { t with egressL := t.egressL ++ [eth] }
    { s with tp := vmod s.tp port f }

/-! ## Link protection (R325, R326) -/

/-- HMAC with SHA-384 (RFC 2104, the HKDF of R326). -/
def hmac384 (key m : List Byte) : List Byte :=
  let k := if key.length > 128 then sha384 key else key
  let k := k ++ List.replicate (128 - k.length) 0
  sha384 (k.map (fun b => b ^^^ 0x5C) ++ sha384 (k.map (fun b => b ^^^ 0x36) ++ m))

/-- R326: the ASCII string FELRAK-RATCHET. -/
def ratchetInfo : List Byte := [0x46, 0x45, 0x4C, 0x52, 0x41, 0x4B, 0x2D, 0x52, 0x41, 0x54, 0x43, 0x48, 0x45, 0x54]

/-- R326: the key after a ratchet; its counter restarts. -/
def LinkKey.ratchet (k : LinkKey) : LinkKey :=
  { k with key := (hmac384 k.key (ratchetInfo ++ [1])).take 32, counter := 0 }

/-! ## The codewords sent (R320, R322, R324, R325, R333) -/

/-- The additional data of a codeword (R325): its control field in 3 bytes. -/
def ctlBytes (ctl : BitVec 20) : List Byte := toBytes 3 ctl.toNat

/-- R326: the key for the next codeword: a counter that has reached 2^31 turns the ratchet. -/
def LinkKey.ready (k : LinkKey) : LinkKey := if 2 ^ 31 ≤ k.counter then k.ratchet else k

/-- R325: the nonce of a codeword. -/
def LinkKey.nonce (k : LinkKey) : List Byte := k.salt ++ toBytes 8 k.counter

/-- R325: a body: the payload encrypted, and its tag. -/
def LinkKey.protect (k : LinkKey) (ctl : BitVec 20) (payload : List Byte) : List Byte :=
  let ks := aesKeys k.key
  let c := gcmCtr ks k.nonce payload
  c ++ gcmTag ks k.nonce (ctlBytes ctl) c

/-- A codeword to send: TYPE, FIRST and its 624 payload bytes. -/
structure Word624 where
  /-- TYPE. -/
  typ : Nat
  /-- FIRST. -/
  first : Nat
  /-- The payload. -/
  payload : List Byte

/-- R324, R325, R343, R347: a lane of an index within its port sends a codeword. -/
def Lane.send (l : Lane) (index : Nat) (w : Word624) : Lane :=
  let ctl := BitVec.ofNat 20 (w.typ + w.first * 16 + l.txRf.toNat * 0x4000 + l.txRetrain.toNat * 0x8000 + index * 0x10000)
  let p := w.payload ++ List.replicate (624 - w.payload.length) 0
  match l.prot, l.txKey with
  | true, some k => { l with lastTx := some ⟨ctl, k.ready.protect ctl p⟩, txKey := some { k.ready with counter := k.ready.counter + 1 } }
  | _, _ => { l with lastTx := some ⟨ctl, p ++ List.replicate 16 0⟩ }

/-- R320: the lane that carries codeword k of a port: of a bonded port lane k mod 2, else the one in service. -/
def State.txLane (s : State) (p k : Nat) : Option Nat :=
  if s.bonded p then some (if k % 2 = 0 then p else p + 2) else s.portLane p

/-- R320: a port sends codewords, one after the other. -/
def State.sendWords (s : State) (p : Nat) (ws : List Word624) : State :=
  let n := (s.portOf p).txNum
  s.modRing (fun r => { r with
    lanes := (ws.zipIdx n).foldl (fun ls w => match s.txLane p w.2 with
      | some l => vmod ls l (fun x => x.send (l / 2) w.1)
      | none => ls) r.lanes
    ports := vmod r.ports p (fun x => { x with txNum := x.txNum + ws.length }) })

/-- R333: frame bytes join the port's stream: the DATA codewords that they fill are sent. FIRST says where the first header begins. -/
def State.sendFrame (s : State) (p : Nat) (f : Frame) : State :=
  let x := s.portOf p
  let first := x.txFirst.getD x.txBuf.length
  let bs := x.txBuf ++ f.bytes
  let n := bs.length / 624
  let ws := (List.range n).map (fun k => Word624.mk 1 (if k = 0 then first else 0x3FF) ((bs.drop (624 * k)).take 624))
  (s.sendWords p ws).modPort p (fun x => { x with txBuf := bs.drop (624 * n), txFirst := if n = 0 then some first else none })

/-- R333, R331: what has begun ends: the rest of its last DATA codeword is filler, a header whose LENGTH reads 0. -/
def State.sendRest (s : State) (p : Nat) : State :=
  let x := s.portOf p
  if x.txBuf = [] then s
  else (s.sendWords p [⟨1, x.txFirst.getD 0x3FF, x.txBuf⟩]).modPort p (fun x => { x with txBuf := [], txFirst := none })

/-- The payload of a marker (R329, table "Marker payload"). -/
def markerBytes (m : Marker) : List Byte :=
  toBytes 8 m.time.toNat ++ toBytes 8 m.corr.toNat ++ toBytes 8 m.gwserial.toNat ++ [m.hops, m.flags] ++ toBytes 2 m.nodes.toNat

/-- R332: SAFE codeword j of a region: slots 2j and 2j + 1; a slot that nothing has written holds an empty cell. -/
def safeWord (cells : List (Nat × List Byte)) (j : Nat) : Word624 :=
  let cell := fun (k : Nat) =>
    let c := ((AMap.get? cells k).getD []).take 256
    c ++ List.replicate (256 - c.length) 0
  ⟨3, 0, cell (2 * j) ++ cell (2 * j + 1)⟩

/-! ### RS(544,514), IEEE 802.3 clause 91 (R322): GF(2^10) modulo x^10 + x^3 + 1, the generator's roots α^0 to α^29 (PRESUMED, log 48) -/

/-- Multiplication in GF(2^10). -/
def gfMul (a b : Nat) : Nat :=
  (List.range 10).foldl (fun r k =>
    let r := if r < 512 then 2 * r else (2 * r) ^^^ 0x409
    if b.testBit (9 - k) then r ^^^ a else r) 0

/-- α^n. -/
def gfPow (n : Nat) : Nat := Nat.repeat (fun x => gfMul x 2) n 1

/-- The generator polynomial's 30 coefficients below x^30, the highest first. -/
def rsGen : List Nat :=
  ((List.range 30).foldl (fun g k =>
    List.zipWith (fun a b => a ^^^ b) (g ++ [0]) (0 :: g.map (fun c => gfMul c (gfPow k)))) [1]).drop 1

/-- The 30 parity symbols of 514 message symbols, the first sent first. -/
def rsParity (msg : List Nat) : List Nat :=
  msg.foldl (fun r m =>
    let t := m ^^^ r.getD 0 0
    List.zipWith (fun a g => a ^^^ gfMul t g) (r.drop 1 ++ [0]) rsGen) (List.replicate 30 0)

/-- R324: the 514 message symbols of a codeword: the control field, then the body, the low bits first (log 48). -/
def Codeword.message (c : Codeword) : List Nat :=
  let v := c.ctl.toNat + 2 ^ 20 * ofBytes c.body
  (List.range 514).map (fun k => v / 2 ^ (10 * k) % 1024)

/-- R322, R324: the 544 symbols of a codeword on the fibre. -/
def Codeword.symbols (c : Codeword) : List Nat := c.message ++ rsParity c.message

/-! ### Times (R321, R331) -/

/-- R321: the codeword time of a rate, in picoseconds. -/
def codewordPs (rate : Nat) : Nat := if rate = 3 then 48571 else if rate = 2 then 97143 else 194286

/-- The time now, in picoseconds of the timer cycles. -/
def State.nowPs (s : State) : Nat := s.tmr.cycles * 10000

/-- R320, R321: how long a port takes to send n codewords. -/
def State.wordsPs (s : State) (p n : Nat) : Nat :=
  match s.portLane p with
  | some l => (if s.bonded p then (n + 1) / 2 else n) * codewordPs (s.laneOf l).rate.toNat
  | none => 0

/-- R333: the codewords that the stream of a port needs until a frame has ended. -/
def State.wordsFor (s : State) (p : Nat) (f : Frame) : Nat := ((s.portOf p).txBuf.length + f.length + 623) / 624

/-- R331: when the last codeword of a frame that begins now ends. -/
def State.frameEnd (s : State) (p : Nat) (f : Frame) : Nat := max s.nowPs (s.portOf p).txEnd + s.wordsPs p (s.wordsFor p f)

/-- R331: the last codeword of a frame that begins now on a port ends two codeword times before the next marker is due; markers are due
every 125 µs from the last one sent. -/
def State.quiet (s : State) (p : Nat) (f : Frame) : Bool :=
  match (s.dir p).markerAt with
  | none => true
  | some m =>
    let start := max s.nowPs (s.portOf p).txEnd - m * 10000
    let stop := s.frameEnd p f + s.wordsPs p 2 - m * 10000
    decide (start / 125000000 = stop / 125000000)

/-- R343: a lane loses lock: counted, out of service, RF sent, training again. -/
def State.loseLock (s : State) (n : Nat) : State :=
  let l := s.laneOf n
  if l.state ≠ .inService ∧ l.state ≠ .keyAgreement ∧ l.state ≠ .training then s
  else
    let s := s.count (aLane n 0x28)
    let s := s.modLane n (fun l => { l with txRf := true, badRun := 0, rfRun := 0, goodRun := 0 })
    s.laneDown n .training

end Sys2Proof.Machine
end

