-- ==== Sys2Proof/Machine/Far.lean ====
section
/-!
DEFINITION. Sys2Proof/Machine/Far.lean: far transactions (R223, R233, R368 to R373) at the requester and at the target,
the checks of R134, the grant table (R135) and the grant inbox (R140, R141).
-/
namespace Sys2Proof.Machine

/-! ## Frames (R368) -/

/-- R368: a far frame of a TYPE. -/
def farFrame (type : Nat) (dest : Byte) (addr : W64) (size : Nat) (stall tseq : Byte) (status : Nat) (serial : W64)
    (data : List Byte) : Frame :=
  let n := if type = 2 ∨ type = 3 then max 48 ((size + 31) / 8 * 8) else 48
  let body := toBytes 8 addr.toNat ++ [BitVec.ofNat 8 size, stall, tseq, BitVec.ofNat 8 status, 0, 0, 0, 0] ++
    toBytes 8 serial.toNat ++ data
  Frame.make 2 (BitVec.ofNat 8 type) dest (body ++ List.replicate (n - body.length) 0)

/-- R368: a request frame's fields. -/
def farReqOf (f : Frame) : FarReq :=
  let p := f.payload
  let size := leField p 8 1
  { src := f.src, isStore := f.type == 2, addr := BitVec.ofNat 64 (leField p 0 8), size := size,
    stall := p.getD 9 0, tseq := p.getD 10 0, serial := BitVec.ofNat 64 (leField p 16 8), data := (p.drop 24).take size }

/-! ## The requester (R369, R370) -/

/-- STALL of a frame: core in bits [4:3], stall in bits [2:0]. -/
def farStall (i : Nat) : Byte := BitVec.ofNat 8 i

/-- R370: the LOAD or STORE of an access leaves (again). -/
def State.farSend (s : State) (i : Nat) (op : FarOp) : State :=
  match op.store with
  | none => s.insert (farFrame 1 op.node op.ea op.size (farStall i) op.tseq 0 s.chip.serial [])
  | some d => s.insert (farFrame 2 op.node op.ea op.size (farStall i) op.tseq 0 s.chip.serial d)

/-- R370: the QUERY of a store. -/
def State.farQuery (s : State) (i : Nat) (op : FarOp) : State :=
  s.insert (farFrame 7 op.node op.ea op.size (farStall i) op.tseq 0 s.chip.serial [])

/-- R233, R370: a far access completes: the data are written and the stall moves on. -/
def State.farDone (s : State) (i : Nat) (op : FarOp) (data : List Byte) : State :=
  let s := match op.store with
    | some _ => s
    | none =>
      if op.size = 64 then
        (List.range 8).foldl (fun s k => s.wrInt i (BitVec.ofNat 5 (24 + k)) (BitVec.ofNat 64 (leField data (8 * k) 8))) s
      else
        let v := leField data 0 op.size
        s.wrInt i op.dest (if op.sext then sextN (8 * op.size) v else BitVec.ofNat 64 v)
  (s.modStall i (fun t => ({ t.advance with farOp := none }).wake)).groupHalt i

/-- R243: DETAIL of a far fault. -/
def farDetail (op : FarOp) : W64 :=
  BitVec.ofNat 64 (op.node.toNat + op.busy * 256 + (if op.store.isSome then 0x1000 else 0))

/-- R233: a far fault is settled; it is taken when the stall next runs. -/
def State.farFault (s : State) (i : Nat) (op : FarOp) (vec : Nat) : State :=
  (s.modStall i (fun t =>
    ({ t with farOp := none, outcome := some { vec := vec, n := 0, faddr := op.ea, insn := op.insn, detail := farDetail op } }).wake)).groupHalt i

/-- Change the access in flight. -/
def State.setFarOp (s : State) (i : Nat) (op : FarOp) : State := s.modStall i (fun t => { t with farOp := some op })

/-- R369: a response matches the access of a stall. -/
def farMatches (f : Frame) (op : FarOp) : Bool :=
  f.src == op.node && decide (leField f.payload 0 8 = op.ea.toNat) && f.payload.getD 10 0 == op.tseq

/-- R369, R370: FAR_RESPONSE_RX: DATA, ACK, REVOKED, BUSY and OUTCOME move the requester's access. -/
def State.farResponse (s : State) (f : Frame) : State :=
  let i := leField f.payload 9 1
  match (s.stall i).farOp with
  | none => s.ringCount 14
  | some op =>
    if 32 ≤ i ∨ ¬ farMatches f op then s.ringCount 14
    else
      let st := leField f.payload 11 1
      match op.phase, f.type.toNat with
      | .sent, 3 => s.farDone i op (f.payload.drop 24)
      | .sent, 4 => s.farDone i op []
      | .sent, 5 => s.farFault i op vFarRevoked
      | .sent, 6 =>
        if op.busy < 8 then s.setFarOp i { op with phase := .backoff, busy := op.busy + 1 }
        else s.farFault i op vFarBusy
      | .querying, 4 => s.farDone i op []
      | .querying, 8 =>
        if st = 1 then s.farDone i op []
        else if st = 0 then s.farFault i op vFarTimeout
        else if st = 2 then s.setFarOp i { op with phase := .held }
        else s
      | _, _ => s

/-- FAR_RESPONSE_RX. -/
def execFarResponseRx (f : Frame) (s : State) : Out := .next (if s.ringOn then s.farResponse f else s)

/-- R370: FAR_TIMER_EXPIRY. -/
def execFarTimerExpiry (i : StallId) (s : State) : Out :=
  match (s.stall i.val).farOp with
  | none => .next s
  | some op =>
    match op.phase, op.store with
    | .sent, none => .next (s.farFault i.val op vFarTimeout)
    | .sent, some _ => .next ((s.farQuery i.val op).setFarOp i.val { op with phase := .querying, queries := 1 })
    | .querying, _ => .next ((s.farQuery i.val op).setFarOp i.val { op with queries := op.queries + 1 })
    | _, _ => .next s

/-- R370: FAR_BACKOFF_END: the same TSEQ is sent again. -/
def execFarBackoffEnd (i : StallId) (s : State) : Out :=
  match (s.stall i.val).farOp with
  | none => .next s
  | some op =>
    if op.phase = .backoff then .next ((s.farSend i.val op).setFarOp i.val { op with phase := .sent }) else .next s

/-! ## The grant table (R135, R136) -/

/-- A grant table entry: its two words. -/
structure GrantEntry where
  /-- Bytes 0 to 7. -/
  lo : W64
  /-- Bytes 8 to 15. -/
  hi : W64
deriving DecidableEq, Repr

/-- R135: the address of entry i. -/
def State.grantAddr (s : State) (i : Nat) : Nat := ((s.pair (aRing 0x100)).toNat + 16 * i) % 2 ^ 44
/-- R135: the size of the table. -/
def State.grantCount (s : State) : Nat := 2 ^ s.field (aRing 0x108) 4 0
/-- RING_GRANT_CTRL.EN. -/
def State.grantEn (s : State) : Bool := s.flag (aRing 0x108) 8
/-- RING_GRANT_EPOCH.EPOCH. -/
def State.grantEpoch (s : State) : BitVec 8 := (s.reg (aRing 0x10C)).extractLsb' 0 8

/-- R282, R134: the ring switch reads an entry; none when it lies in the sealed range, has no target or meets an error. -/
def State.grantRead (s : State) (i : Nat) : Option GrantEntry × State :=
  let a := s.grantAddr i
  if s.touchesSealed a 16 ∨ ¬ (s.target a).isMem then (none, s)
  else
    let r := s.readTarget .dma a 16
    match r.1 with
    | .ok bs => (some ⟨BitVec.ofNat 64 (leField bs 0 8), BitVec.ofNat 64 (leField bs 8 8)⟩, r.2)
    | .error _ => (none, r.2)

/-- R136: hardware writes an entry. -/
def State.grantWrite (s : State) (i : Nat) (e : GrantEntry) : State :=
  let a := s.grantAddr i
  if s.touchesSealed a 16 then s else s.writeTarget .dma a (toBytes 8 e.lo.toNat ++ toBytes 8 e.hi.toNat) []

/-- STATE of an entry. -/
def GrantEntry.state (e : GrantEntry) : Nat := bits e.hi 41 40
/-- GEN of an entry. -/
def GrantEntry.gen (e : GrantEntry) : BitVec 8 := e.hi.extractLsb' 32 8

/-- R134, R371: the checks of a far-in request: the physical address of the access, or none (REVOKED). -/
def State.farCheck (s : State) (q : FarReq) : Option Nat × State :=
  let index := bits q.addr 63 48
  let off := bits q.addr 31 0
  if ¬ s.grantEn ∨ s.grantCount ≤ index then (none, s)
  else
    let r := s.grantRead index
    match r.1 with
    | none => (none, r.2)
    | some e =>
      let s := r.2
      let ok := decide (e.state = 1) && decide (bits q.addr 47 40 = s.grantEpoch.toNat) && decide (bits q.addr 39 32 = e.gen.toNat) &&
        decide (bits e.lo 55 48 = q.src.toNat) && decide (off + q.size ≤ bits e.hi 31 0 + 1) &&
        bit e.hi (if q.isStore then 43 else 42)
      (if ok then some ((bits e.lo 43 0 + off) % 2 ^ 44) else none, s)

/-- R296: the Screen checks every part of a far-in access, the second one whatever became of the first, before any is performed. -/
def State.farScreen (s : State) (pa : Nat) (q : FarReq) : Bool × State :=
  (transfer pa q.size).foldl (fun (acc : Bool × State) p =>
    let c := acc.2.screenCheck (Who.dev 4) p.1 (if q.isStore then .store else .load) false
    let there : Bool := match c.2.target p.1 with
      | .none | .regs => false
      | _ => true
    (acc.1 && c.1.ok && there, c.2)) (true, s)

/-- R371: perform a far-in access that has passed its checks: the data of a load, or none where a read meets an error. -/
def State.farPerform (s : State) (pa : Nat) (q : FarReq) : Option (List Byte) × State :=
  if q.isStore then
    (some [], ((transfer pa q.size).foldl (fun (acc : List Byte × State) p =>
      (acc.1.drop p.2, acc.2.writeTarget .dma p.1 (acc.1.take p.2) [])) (q.data, s)).2)
  else
    (transfer pa q.size).foldl (fun (acc : Option (List Byte) × State) p =>
      match acc.1 with
      | none => acc
      | some got =>
        let r := acc.2.readTarget .dma p.1 p.2
        match r.1 with
        | .ok bs => (some (got ++ bs), r.2)
        | .error _ => (none, r.2)) (some [], s)

/-- R134, R371: check and perform a request. -/
def State.farRun (s : State) (q : FarReq) : Option (List Byte) × State :=
  let c := s.farCheck q
  match c.1 with
  | none => (none, c.2)
  | some pa =>
    let k := c.2.farScreen pa q
    if ¬ k.1 then (none, k.2) else k.2.farPerform pa q

/-- R371: an answer to a request. -/
def State.farAnswer (s : State) (q : FarReq) (type status : Nat) (data : List Byte) : State :=
  let s := if type = 6 then s.ringCount 12 else s
  s.insert (farFrame type q.src q.addr q.size q.stall q.tseq status 0 data)

/-! ## The store ledger (R372, R373) -/

/-- R372: the key of an entry. -/
def LedgerEntry.is (e : LedgerEntry) (q : FarReq) : Bool := e.serial == q.serial && e.stall == q.stall

/-- R372: a TSEQ is newer than another. -/
def tseqNewer (q e : BitVec 8) : Bool := decide (1 ≤ (q - e).toNat ∧ (q - e).toNat ≤ 127)

/-- Set the entry of a key. -/
def State.ledgerSet (s : State) (q : FarReq) (st : LedgerState) : State :=
  let e : LedgerEntry := { serial := q.serial, stall := q.stall, tseq := q.tseq, state := st, used := s.tt.now }
  s.modRing (fun r => { r with ledger := r.ledger.filter (fun x => !x.is q) ++ [e] })

/-- The entry used least recently among those that a test admits. -/
def oldestOf (l : List LedgerEntry) (f : LedgerEntry → Bool) : Option LedgerEntry :=
  (l.filter f).foldl (fun (b : Option LedgerEntry) x => match b with
    | none => some x
    | some y => if x.used.toNat < y.used.toNat then some x else some y) none

/-- R373: room for a new entry: a free one, or one freed in the order given; none: no room. -/
def State.ledgerRoom (s : State) : Option State :=
  let l := s.ring.ledger
  let drop := fun (e : LedgerEntry) (ev : Bool) =>
    some (s.modRing (fun r => { r with ledger := r.ledger.filter (fun x => x ≠ e), evicted := r.evicted || ev }))
  if l.length < 8192 then some s
  else match oldestOf l (fun e => e.state != .performed) with
    | some e => drop e false
    | none =>
      match oldestOf l (fun e => e.state == .performed && decide (e.used.toNat + 86400000000000 ≤ s.tt.now.toNat)) with
      | some e => drop e true
      | none => none

/-- R373: a STORE with a new TSEQ is run: ACK and PERFORMED, or REVOKED and CANCELLED. -/
def State.ledgerRun (s : State) (q : FarReq) : State :=
  let r := s.farRun q
  match r.1 with
  | some _ => (r.2.ledgerSet q .performed).farAnswer q 4 0 []
  | none => (r.2.ledgerSet q .cancelled).farAnswer q 5 0 []

/-- R373: the outcome of a STORE. -/
def State.ledgerStore (s : State) (q : FarReq) : State :=
  match s.ring.ledger.find? (fun e => e.is q) with
  | none =>
    match s.ledgerRoom with
    | none => s.farAnswer q 6 0 []
    | some s => s.ledgerRun q
  | some e =>
    if e.tseq = q.tseq then
      if e.state = .cancelled then s
      else (s.ledgerSet q e.state).farAnswer q 4 0 []
    else if tseqNewer q.tseq e.tseq then s.ledgerRun q
    else s

/-- R373: the outcome of a QUERY. -/
def State.ledgerQuery (s : State) (q : FarReq) : State :=
  match s.ring.ledger.find? (fun e => e.is q) with
  | none =>
    if s.ring.evicted then s.farAnswer q 8 2 []
    else match s.ledgerRoom with
      | none => s
      | some s => (s.ledgerSet q .cancelled).farAnswer q 8 0 []
  | some e =>
    if e.tseq = q.tseq then
      if e.state = .cancelled then (s.ledgerSet q .cancelled).farAnswer q 8 0 []
      else (s.ledgerSet q .answered).farAnswer q 8 1 []
    else if tseqNewer q.tseq e.tseq then (s.ledgerSet q .cancelled).farAnswer q 8 0 []
    else s.farAnswer q 8 2 []

/-- QUERY_RX. -/
def State.queryRx (s : State) (f : Frame) : State := s.ledgerQuery (farReqOf f)

/-- R373: QUERY_RX. -/
def execQueryRx (f : Frame) (s : State) : Out := .next (if s.ringOn then s.queryRx f else s)

/-- R356, R371: a LOAD or STORE is ejected: it is queued, or answered BUSY when the far-in queue is full; the spec gives
the reply queue no size, so whether it is full too is a free choice (log 10). -/
def State.farRequest (s : State) (f : Frame) : State :=
  if s.ring.farIn.length < 64 then s.modRing (fun r => { r with farIn := r.farIn ++ [farReqOf f] })
  else
    let (full, s) := s.drawBool
    if full then s.ringDrop 13 else s.farAnswer (farReqOf f) 6 0 []

/-- FAR_REQUEST_RX. -/
def execFarRequestRx (f : Frame) (s : State) : Out := .next (if s.ringOn then s.farRequest f else s)

/-- R371, R373: FAR_REQUEST_SERVICE: the oldest request is checked, performed and answered. -/
def execFarRequestService (s : State) : Out :=
  match s.ring.farIn with
  | [] => .next s
  | q :: rest =>
    let s := s.modRing (fun r => { r with farIn := rest })
    if q.isStore then .next (s.ledgerStore q)
    else
      let r := s.farRun q
      .next (match r.1 with
        | some bs => r.2.farAnswer q 3 0 bs
        | none => r.2.farAnswer q 5 0 [])

/-! ## The grant inbox (R140, R141) -/

/-- R140, R141, R282, R356: an offer is placed in the inbox, or discarded; the answer says whether it was placed. One that finds
the inbox full counts as an ejection without room too. -/
def State.inboxPlace (s : State) (src : Byte) (index : BitVec 16) (epoch gen : BitVec 8) (lenM1 : W32) (load store : Bool) :
    Bool × State :=
  let head := s.field (aRing 0x11C) 15 0
  let n := 2 ^ s.field (aRing 0x118) 3 0
  let a := ((s.pair (aRing 0x110)).toNat + 32 * (head % n)) % 2 ^ 44
  if ¬ s.flag (aRing 0x118) 8 ∨ (head + 65536 - s.field (aRing 0x120) 15 0) % 65536 = n then
    (false, if s.flag (aRing 0x118) 8 then (s.count (aRing 0x128)).ringDrop 8 else s.count (aRing 0x128))
  else if ¬ (s.target a).isMem then (false, (s.hwSet (aRing 0x124) 1).count (aRing 0x128))
  else if s.touchesSealed a 32 then (false, s.count (aRing 0x128))
  else
    let c := Cap.far src index epoch gen (lenM1.toNat + 1) load store
    let bs := toBytes 16 c.bits.toNat ++ [src, BitVec.ofNat 8 (load.toNat + 2 * store.toNat)] ++ toBytes 2 index.toNat ++
      toBytes 4 lenM1.toNat ++ toBytes 8 s.tt.now.toNat
    let s := s.writeTarget .dma a bs [true, false]
    (true, (s.setReg (aRing 0x11C) (BitVec.ofNat 32 ((head + 1) % 65536))).raise 38)

/-- R140: GRANT_OFFER_RX. -/
def execGrantOfferRx (src : BitVec 8) (index : BitVec 16) (epoch gen : BitVec 8) (lenM1 : BitVec 32) (load store : Bool)
    (s : State) : Out :=
  .next (if s.ringOn then (s.inboxPlace src index epoch gen lenM1 load store).2 else s)

end Sys2Proof.Machine
end

