-- ==== Sys2Proof/Machine/Lanes.lean ====
section
/-!
DEFINITION. Sys2Proof/Machine/Lanes.lean: ring lanes: training, link protection, codewords, loss of lock (R320 to R328,
R333, R334, R343, R347), and the lane registers.
-/
namespace Sys2Proof.Machine

/-- R327: a lane is to run without protection: MANUFACTURE with NOPROT. -/
def State.noProt (s : State) (n : Nat) : Bool := s.sac.life == .manufacture && s.flag (aLane n 0) 7

/-- A lane may train: it has been admitted, its clock is good and RATE_MAX does not hold it off (R79, R94, R328). -/
def State.laneMayTrain (s : State) (n : Nat) : Bool :=
  bit s.power.started (4 + n) && s.power.srefGood && decide (s.field (aLane n 0) 1 0 ≠ 0)

/-- R326: HKDF with SHA-384 of a salt and input key material: 36 bytes, a key and its salt, for an info. -/
def spanKey (salt ikm info : List Byte) : LinkKey :=
  let prk := hmac384 salt ikm
  let out := hmac384 prk (info ++ [1])
  { key := out.take 32, salt := (out.drop 32).take 4, counter := 0 }

/-- R326: the ASCII string FELRAK-SPAN. -/
def spanInfo : List Byte := [0x46, 0x45, 0x4C, 0x52, 0x41, 0x4B, 0x2D, 0x53, 0x50, 0x41, 0x4E]

/-- R326: the key of a lane of an index for the codewords that one end sends: the lower serial and its nonce come first. How the info
writes serials, lane and direction is not given (log 10). -/
def spanKeyOf (lo hi : W64) (nonceLo nonceHi secret : List Byte) (index : Nat) (fromLo : Bool) : LinkKey :=
  spanKey (nonceLo ++ nonceHi) secret (spanInfo ++ Config.spanInfo lo hi index fromLo)

/-- R326, R327: LANE_KEY_AGREEMENT: with a good signature of the neighbour's ephemeral key the two keys and salts are derived from the
X25519 secret and both nonces; this end's ephemeral key and nonce come from the TRNG: free values (log 10). -/
def execLaneKeyAgreement (n : LaneId) (peer : BitVec 64) (nonce pub : List (BitVec 8)) (sigOk : Bool) (s : State) : Out :=
  let l := s.laneOf n.val
  if (l.state ≠ .training ∧ l.state ≠ .keyAgreement) ∨ ¬ s.laneMayTrain n.val ∨ ¬ s.fw then .next s
  else if ¬ sigOk then .next (s.modLane n.val (fun l => { l with state := .keyAgreement, txKey := none, rxKey := none, peer := none }))
  else
    let (mine, s) := s.drawBytes 32
    let (own, s) := s.drawBytes 32
    let secret := x25519 own pub
    let me := s.chip.serial
    let low := decide (me.toNat < peer.toNat)
    let key := fun (fromLo : Bool) => some (if low then spanKeyOf me peer mine nonce secret (n.val / 2) fromLo
                                            else spanKeyOf peer me nonce mine secret (n.val / 2) fromLo)
    .next (s.modLane n.val (fun l => { l with state := .keyAgreement, peer := some peer, los := false
                                              txKey := key low, rxKey := key !low }))

/-- R352: at training both ends of a span start from full credit. -/
def State.freshCredit (s : State) (p : Nat) : State :=
  let z : Vector (BitVec 32) 4 := Vector.replicate 4 0
  (s.modDir p (fun x => { x with sent := z, credited := z, wicketFree := true })).modDir (1 - p) (fun x => { x with freed := z })

/-- R328 step 5: LANE_IN_SERVICE, at the rate of the span (R321); the other lane of the port that runs at another rate retrains. -/
def execLaneInService (n : LaneId) (peer : BitVec 64) (peerRate : BitVec 2) (peerProt : Bool) (s : State) : Out :=
  let l := s.laneOf n.val
  let prot := !s.noProt n.val
  let keyed := l.peer == some peer && l.txKey.isSome && l.rxKey.isSome
  let p := n.val % 2
  let rate := min (if s.field (aLane n.val 0) 1 0 = 0 then 0 else min (s.spanMax p) (rateAllowed s.sac.derate.clocks.toNat)) peerRate.toNat
  if (l.state ≠ .training ∧ l.state ≠ .keyAgreement) ∨ ¬ s.laneMayTrain n.val ∨ peerProt ≠ prot ∨ (prot ∧ ¬ keyed) ∨ rate = 0 then .next s
  else
    let s := if (s.portOf p).failed then
        (s.freshCredit p).modPort p (fun x => { x with txBuf := [], txFirst := none, rxLeft := 0, rxPart := [], rxLost := true })
      else s
    let s := s.modLane n.val (fun l => { l with
      state := .inService, rate := BitVec.ofNat 2 rate, prot := prot, peerRate := peerRate, los := false, badRun := 0
      rfRun := 0, goodRun := 0, txRf := false, txRetrain := false, rxRetrain := false, measured := false, delays := [] })
    let s := s.portsNow.unitUp (4 + n.val)
    let other := (n.val + 2) % 4
    .next (if s.laneUp other ∧ (s.laneOf other).rate.toNat ≠ rate then s.planRetrain other else s)

/-- R328: LANE_TRAINING_RETRY: a neighbour that does not answer leaves the lane waiting, and it trains again. -/
def execLaneTrainingRetry (n : LaneId) (s : State) : Out :=
  let l := s.laneOf n.val
  if ¬ s.laneMayTrain n.val then .next s
  else if l.state = .training ∨ l.state = .keyAgreement then .next (s.modLane n.val (fun l => { l with state := .waiting }))
  else if l.state = .waiting then .next (s.trainLane n.val)
  else .next s

/-- R326: LINK_KEY_RATCHET of one direction, whose counter has reached 2^31. -/
def execLinkKeyRatchet (n : LaneId) (rx : Bool) (s : State) : Out :=
  .next (s.modLane n.val (fun l =>
    if rx then { l with rxKey := l.rxKey.map LinkKey.ready } else { l with txKey := l.txKey.map LinkKey.ready }))

/-- R347: PLANNED_WRAP. -/
def execPlannedWrap (n : LaneId) (s : State) : Out := .next (if s.ringOn then s.planRetrain n.val else s)

/-- R343: LOSS_OF_LOCK; LOS shows whether the signal is gone. -/
def execLossOfLock (x : LockLoss) (s : State) : Out :=
  .next ((s.loseLock x.lane.val).modLane x.lane.val (fun l => { l with los := l.los || x.noSignal }))

/-- R334: a header that ends the stream: its HCRC fails, its CLASS is reserved or its LENGTH is out of range. -/
def badHeader (bs : List Byte) : Bool :=
  let len := leField bs 4 2
  let cls := leField bs 2 1 % 8
  (crc16 (bs.take 14)).toNat ≠ leField bs 14 2 ∨ cls = 0 ∨ 4 < cls ∨ len < 64 ∨ 9728 < len

/-- R334: the frames that begin from a bad header on, as far as their LENGTHs lead. -/
def framesFrom : Nat → List Byte → Nat
  | 0, _ => 0
  | fuel + 1, bs =>
    let len := leField bs 4 2
    if bs.length < 16 ∨ len = 0 then 0
    else if len < 64 ∨ 9728 < len then 1
    else 1 + framesFrom fuel (bs.drop len)

/-- How the stream of a port stands after some bytes (R333, R334): bytes still to come of a frame, the beginning of a header,
the frames discarded, and whether reception waits for the next FIRST. -/
structure RxStream where
  /-- Bytes to come. -/
  left : Nat
  /-- The part of a header. -/
  part : List Byte
  /-- Frames discarded. -/
  errors : Nat
  /-- Reception waits. -/
  lost : Bool

/-- R333, R334: the stream from a header on: a header of LENGTH 0 makes the rest filler. -/
def rxFrames : Nat → List Byte → RxStream
  | 0, _ => ⟨0, [], 0, false⟩
  | fuel + 1, bs =>
    let len := leField bs 4 2
    if bs.length < 16 then ⟨0, bs, 0, false⟩
    else if len = 0 then ⟨0, [], 0, false⟩
    else if badHeader bs then ⟨0, [], framesFrom (fuel + 1) bs, true⟩
    else if bs.length ≤ len then ⟨len - bs.length, [], 0, false⟩
    else rxFrames fuel (bs.drop len)

/-- R333, R334: the payload of a DATA codeword at a port. A beginning of a header is filler where the next header begins at byte 0. -/
def RPort.rxData (x : RPort) (first : Nat) (bs : List Byte) : RxStream :=
  if x.rxLost then (if first < 624 then rxFrames 40 (bs.drop first) else ⟨0, [], 0, true⟩)
  else if x.rxPart ≠ [] ∧ first ≠ 0 then rxFrames 40 (x.rxPart ++ bs)
  else if bs.length ≤ x.rxLeft then ⟨x.rxLeft - bs.length, [], 0, false⟩
  else rxFrames 40 (bs.drop x.rxLeft)

/-- R324, R325, R343: a codeword that was received badly. -/
def State.badWord (s : State) (n off : Nat) : State :=
  let s := s.count (aLane n off)
  let r := (s.laneOf n).badRun + 1
  let s := (s.modLane n (fun l => { l with badRun := r })).modPort (n % 2) (fun x => { x with rxLost := true })
  if r ≥ 8 then s.loseLock n else s

/-- R325: whether a body passes its tag, and its payload. -/
def Lane.unwrap (l : Lane) (ctl : BitVec 20) (body : List Byte) : Bool × List Byte :=
  if ¬ l.prot then (true, body.take 624)
  else match l.rxKey.map LinkKey.ready with
    | none => (false, [])
    | some k =>
      let ks := aesKeys k.key
      (gcmTag ks k.nonce (ctlBytes ctl) (body.take 624) == (body.drop 624).take 16, gcmCtr ks k.nonce (body.take 624))

/-- R333, R334: a DATA codeword is received: header errors are counted. The frames that the stream delivers arrive by their own
commands (log 21). -/
def State.rxData (s : State) (n first : Nat) (payload : List Byte) : State :=
  let r := (s.portOf (n % 2)).rxData first payload
  Nat.repeat (fun s => s.count (aLane n 0x30)) r.errors
    (s.modPort (n % 2) (fun x => { x with rxLeft := r.left, rxPart := r.part, rxLost := r.lost }))

/-- R332, R363: the cell that the node writes into its slot: the queued cell with SRC, or an empty one. -/
def State.ownCell (s : State) : List Byte :=
  match s.ring.safeTx with
  | some (c, _) => c.set 1 (s.ring.node.getD 0)
  | none => List.replicate 256 0

/-- R330, R332, R344: a SAFE codeword of a ring goes on, the node's own cell in its slot; the gateway relays none. The cells that it
brings arrive by their own commands (log 21). -/
def State.relaySafe (s : State) (d : Nat) (payload : List Byte) : State :=
  if s.master then s
  else
    let j := (s.dir d).safeIdx
    let bs := match s.nodeNum with
      | some me => if me / 2 = j then payload.take (me % 2 * 256) ++ s.ownCell ++ payload.drop (me % 2 * 256 + 256) else payload
      | none => payload
    (s.modDir d (fun x => { x with safeIdx := x.safeIdx + 1 })).sendWords (if s.portDown d then 1 - d else d) [⟨3, 0, bs⟩]

/-- R343, R346, R347: RF and RETRAIN of a codeword: RF in two codewords is a loss of lock; RETRAIN asks for a planned wrap, or
stops the lane of a bonded port. -/
def State.rxFlags (s : State) (n : Nat) (ctl : BitVec 20) : State :=
  let rf := bit ctl 14
  let r := (s.laneOf n).rfRun
  let two := s.bonded (n % 2)
  let s := s.modLane n (fun l => { l with
    badRun := 0, rfRun := if rf then l.rfRun + 1 else 0, goodRun := if rf then 0 else l.goodRun + 1 })
  if rf ∧ 1 ≤ r then s.loseLock n
  else if ¬ bit ctl 15 then s
  else if two then s.laneDown n .training
  else (s.modLane n (fun l => { l with rxRetrain := true })).modPort (n % 2) (fun p => { p with planned := true })

/-- R324, R325, R330, R334, R343, R347: CODEWORD_RX: what the FEC found, the tag, TYPE, the stream of frames, the SAFE region, RF and
RETRAIN. Lane n receives on port n mod 2, the ring that leaves on the other port. -/
def execCodewordRx (n : LaneId) (fec : FecResult) (ctl : BitVec 20) (body : List (BitVec 8)) (s : State) : Out :=
  let l := s.laneOf n
  if l.state ≠ .inService then .next s
  else
    let next := fun (k : LinkKey) => { k.ready with counter := k.ready.counter + 1 }
    let s := if l.prot then s.modLane n.val (fun l => { l with rxKey := l.rxKey.map next }) else s
    let s := if fec = .corrected then s.count (aLane n.val 0x10) else s
    let typ := bits ctl 3 0
    if fec = .uncorrectable then .next (s.badWord n.val 0x18)
    else if typ = 0 ∨ 5 < typ then .next ((s.count (aLane n.val 0x18)).modLane n.val (fun l => { l with badRun := 0 }))
    else
      let r := l.unwrap ctl body
      if ¬ r.1 then .next (s.badWord n.val 0x20)
      else
        let s := if typ = 1 then s.rxData n.val (bits ctl 13 4) r.2
          else if typ = 3 ∧ s.ringOn then s.relaySafe (1 - n.val % 2) r.2 else s
        .next (s.rxFlags n.val ctl)

/-- R340: the one-way delay that an exchange gives: half the round trip less both ends' turnaround. -/
def spanDelayOf (x : DelayExchange) : Nat := (x.round - x.far - x.near) / 2

/-- R352, R340, R359: LINK_CODEWORD_RX: credits and the wicket of the span's far end, a delay measured once in a bay, a beacon. -/
def execLinkCodewordRx (n : LaneId) (freed : Vector (BitVec 32) 4) (wicketEmpty : Bool) (delay : Option DelayExchange)
    (beacon : Option Beacon) (s : State) : Out :=
  let p := n.val % 2
  if ¬ s.laneUp n.val then .next s
  else
    let s := s.modDir p (fun x => { x with
      credited := freed, wicketFree := wicketEmpty
      beacon := match beacon with | some b => some b | none => x.beacon })
    .next (match delay with
      | some d => s.modLane n.val (fun l => if l.measured then l else { l with measured := true, delays := (spanDelayOf d :: l.delays).take 64 })
      | none => s)

/-! ## Registers -/

/-- RING_LANE_STATUS.STATE. -/
def LaneState.code : LaneState → Nat
  | .off => 0
  | .training => 1
  | .keyAgreement => 2
  | .inService => 3
  | .waiting => 4
  | .parked => 5

/-- The word that a lane register reads. -/
def State.laneView (s : State) (n off : Nat) : W32 :=
  let l := s.laneOf n
  if off = 4 then
    BitVec.ofNat 32 (l.state.code + l.rate.toNat * 16 + (decide (l.rfRun ≠ 0)).toNat * 256 + l.los.toNat * 512 + l.prot.toNat * 1024)
  else if off = 8 then BitVec.ofInt 32 (s.laneDelay n)
  else if off = 0 then (if s.sac.life = .manufacture then s.reg (aLane n 0) else (s.reg (aLane n 0)) &&& 0x13)
  else s.reg (aLane n off)

/-- R321, R328, R347: the lanes of a port that run faster than their span may now run retrain. -/
def State.spanLowered (s : State) (p : Nat) : State :=
  [p, p + 2].foldl (fun s n => if s.laneUp n ∧ s.spanMax p < (s.laneOf n).rate.toNat then s.planRetrain n else s) s

/-- R327, R328, R347: a write of a lane register: a RATE_MAX lowered below the current rate retrains the lanes of its span, 0 holds the
lane off, and a lane held off trains when it is raised. -/
def State.laneWrite (s : State) (n off : Nat) (d : W32) : State :=
  if off = 0 then
    let d := if s.sac.life = .manufacture then d else putBit d 7 (s.flag (aLane n 0) 7)
    let s := s.store (aLane n 0) d
    let mx := s.field (aLane n 0) 1 0
    let l := s.laneOf n
    if mx = 0 then (if l.state = .parked then s else s.laneDown n .off)
    else if l.state = .off ∧ s.laneMayTrain n then s.trainLane n
    else s.spanLowered (n % 2)
  else s.store (aLane n off) d

end Sys2Proof.Machine
end

