-- ==== Sys2Proof/Machine/Ring.lean ====
section
/-!
DEFINITION. Sys2Proof/Machine/Ring.lean: the ring switch: bays and markers, SAFE cells, enumeration and joining, folds,
the handling and choice of frames, beacons, CTRL queues and retry (R329 to R367), and its registers.
-/
namespace Sys2Proof.Machine

/-! ## Reliable CTRL (R366) -/

/-- R365: a CTRL TYPE is reliable. -/
def reliableType (t : Byte) : Bool := t == 0x10 || decide (0x80 ≤ t.toNat ∧ t.toNat ≤ 0xBF)

/-- R366: a reliable frame is sent, or waits while one to its destination is outstanding. -/
def State.sendReliable (s : State) (f : Frame) : State :=
  if s.ring.node.isNone then s
  else if s.ring.reliable.any (fun r => r.frame.dest == f.dest) then s.modRing (fun r => { r with reliableQ := r.reliableQ ++ [f] })
  else
    let (f, s) := s.stampFrame f
    let s := s.modRing (fun r => { r with reliable := r.reliable ++ [{ frame := f, resends := 0 }] })
    s.enqueueLocal (s.route f) f

/-- R366: the reliable frame outstanding to a destination is finished; the next one that waits for it is sent. -/
def State.endReliable (s : State) (dest : Byte) : State :=
  let s := s.modRing (fun r => { r with reliable := r.reliable.filter (fun x => x.frame.dest != dest) })
  match s.ring.reliableQ.find? (fun f => f.dest == dest) with
  | none => s
  | some f => (s.modRing (fun r => { r with reliableQ := r.reliableQ.erase f })).sendReliable f

/-- R141: the outcome of an offer is set in its entry: bit 44 DELIVERED, bit 45 UNDELIVERABLE. -/
def State.offerOutcome (s : State) (f : Frame) (b : Nat) : State :=
  if f.type ≠ 0x10 then s
  else
    let i := leField f.payload 6 2
    let r := s.grantRead i
    match r.1 with
    | some e => r.2.grantWrite i { e with hi := putBit e.hi b true }
    | none => r.2

/-- R366: CTRL_RETRY; a node without an ID resends nothing (R335). -/
def execCtrlRetry (dest : BitVec 8) (s : State) : Out :=
  match s.ring.reliable.find? (fun r => r.frame.dest == dest) with
  | none => .next s
  | some r =>
    if s.ring.node.isNone then .next s
    else if r.resends < 8 then
      let s := s.modRing (fun x => { x with reliable := x.reliable.map (fun y => if y.frame.dest == dest then { y with resends := y.resends + 1 } else y) })
      .next (s.enqueueLocal (s.route r.frame) { r.frame with wrapped := false, hops := 0, stamp := s.tt.now.extractLsb' 10 16 })
    else .next (((s.ringCount 15).offerOutcome r.frame 45).endReliable dest)

/-- R366: an acknowledgement completes the reliable frame outstanding to its sender. -/
def State.ctrlAck (s : State) (src : Byte) (seq : W32) : State :=
  match s.ring.reliable.find? (fun r => r.frame.dest == src && r.frame.seq == seq) with
  | none => s
  | some r => (s.offerOutcome r.frame 44).endReliable src

/-- CTRL_ACK_RX. -/
def execCtrlAckRx (src : BitVec 8) (seq : BitVec 32) (s : State) : Out := .next (if s.ringOn then s.ctrlAck src seq else s)

/-- R365, R366: CTRL_ACK of a frame. -/
def State.sendAck (s : State) (f : Frame) : State := s.insert (Frame.make 1 0x11 f.src (toBytes 4 f.seq.toNat))

/-- R366: the SEQ of the last reliable frame placed from a source. -/
def State.placedSeq (s : State) (src : Byte) : Option W32 := AMap.get? s.ring.placed src.toNat

/-- R366: a reliable frame has been placed: it is acknowledged and its SEQ is kept. -/
def State.placed (s : State) (f : Frame) : State :=
  (s.modRing (fun r => { r with placed := AMap.set r.placed f.src.toNat f.seq })).sendAck f

/-! ## Topology frames (R336, R337) -/

/-- R336, R144: the node commits its ID and advances its epoch. -/
def State.enumCommit (s : State) (node : Option (BitVec 8)) : State :=
  let s := s.modRing (fun r => { r with node := node, enumId := none, enumerated := true })
  let e := (s.field (aRing 0x10C) 7 0 + 1) % 256
  let s := { s with sac := { s.sac with epochs := s.sac.epochs + 1 } }
  ((s.writeCounters).setReg (aRing 0x10C) (BitVec.ofNat 32 (0x100 + e))).ringCause 0

/-- R336: an ENUM_DONE is received. The gateway committed when it sent it; a node that saw no ENUM of the pass keeps the ID it
holds. -/
def State.enumDone (s : State) : State :=
  if s.master then s else s.enumCommit (s.ring.enumId.getD s.ring.node)

/-- R337: an ASSIGN is received. -/
def State.assign (s : State) (serial : W64) (id : Byte) : State :=
  let s := s.modRing (fun r => { r with ledger := r.ledger.filter (fun e => e.serial != serial) })
  if serial = s.chip.serial ∧ s.ring.node.isNone ∧ ¬ s.master then s.modRing (fun r => { r with node := some id }) else s

/-- R337: a NOTICE is received. The broadcasts of a node that has restarted are new (log 21). -/
def State.notice (s : State) (kind node : Nat) : State :=
  let b := if kind = 0 then 3 else if kind = 1 then 4 else if kind = 2 then 1 else 2
  let s := if kind = 0 then s.modRing (fun r => { r with bcastSeen := r.bcastSeen.filter (fun x => x.1 ≠ node) }) else s
  if 3 < kind then s else (s.setField (aRing 0x28) 23 16 node).ringCause b

/-- R350: a broadcast topology frame acts at a node. -/
def State.topoFrame (s : State) (type : Nat) (p : List Byte) : State :=
  if type = 2 then s.enumDone
  else if type = 4 then s.assign (BitVec.ofNat 64 (leField p 0 8)) (p.getD 8 0)
  else if type = 5 then s.notice (leField p 0 1) (leField p 1 1)
  else s

/-- R350: a broadcast leaves its source on ring 0; the source takes its own copy at once, and not again when it comes by. -/
def State.broadcast (s : State) (type : Nat) (p : List Byte) : State :=
  match s.nodeNum with
  | none => s
  | some me =>
    let (f, s) := s.stampFrame { Frame.make 1 (BitVec.ofNat 8 type) 0 p with bcast := true }
    let s := s.modRing (fun r => { r with bcastSeen := (me, f.seq) :: r.bcastSeen })
    (s.enqueueLocal 0 f).topoFrame type p

/-- R337, R344: a NOTICE is sent. -/
def State.sendNotice (s : State) (kind node port : Nat) : State :=
  s.broadcast 5 [BitVec.ofNat 8 kind, BitVec.ofNat 8 node, BitVec.ofNat 8 port]

/-- R336: the payload of an ENUM. -/
def enumPayload (next excess : Nat) (gwserial : W64) : List Byte :=
  toBytes 2 next ++ [BitVec.ofNat 8 excess] ++ toBytes 8 gwserial.toNat

/-- R336: the gateway sends an ENUM on a ring. -/
def State.sendEnum (s : State) (d next excess : Nat) (gwserial : W64) : State :=
  let (f, s) := s.stampFrame (Frame.make 1 1 0 (enumPayload next excess gwserial))
  s.enqueueLocal d { f with src := 0 }

/-- R336: a port is in service. -/
def State.portUp (s : State) (p : Nat) : Bool := !(s.portOf p).failed

/-- R336: an enumeration begins, on the east port if it is in service. -/
def State.enumBegin (s : State) : State :=
  if ¬ s.master ∨ s.ring.enumBusy ∨ (¬ s.portUp 0 ∧ ¬ s.portUp 1) then s
  else
    let p := if s.portUp 0 then 0 else 1
    let s := s.modRing (fun r => { r with enumBusy := true, enumPort := if p = 0 then 0 else 1, enumSecond := false, assigned := [], overJoin := [] })
    (s.setField (aRing 0x14) 15 8 0).sendEnum p 1 0 s.chip.serial

/-- ENUM_START. -/
def execEnumStart (s : State) : Out := .next (if s.ringOn ∧ 10 ≤ s.ring.bays then s.enumBegin else s)

/-- R336: a write of RING_ENUM: GO, unless BUSY or CONFLICT. -/
def State.enumGo (s : State) (d : W32) : State :=
  if bit d 0 ∧ s.gateway ∧ ¬ s.flag (aRing 0x10) 8 then s.enumBegin else s

/-- R336: the pass has ended: ENUM_DONE. -/
def State.enumEnd (s : State) (next excess : Nat) : State :=
  let s := s.modRing (fun r => { r with enumBusy := false, enumSecond := false, nodes := next })
  let s := (s.setField (aRing 0x14) 15 8 excess).enumCommit (some 0)
  s.broadcast 2 (toBytes 2 next ++ toBytes 8 s.chip.serial.toNat)

/-- R352: units freed at the input of a ring. -/
def State.freeUnits (s : State) (d c n : Nat) : State :=
  s.modDir d (fun x => { x with freed := vmod x.freed c (fun v => v + BitVec.ofNat 32 n) })

/-- R351, R353: a frame that has arrived leaves no place taken: it frees its units, or, sent into the wicket, none. -/
def State.freeFrame (s : State) (d : Nat) (f : Frame) (wicket : Bool) : State := if wicket then s else s.freeUnits d f.cl f.units

/-- R351, R353: a frame takes its place at the input of a ring: in the wicket where its sender sent it there, else in its pool, for
which the sender held credits. -/
def State.enqueueTransit (s : State) (d : Nat) (f : Frame) (wicket : Bool) : State :=
  let x := s.dir d
  if wicket then (if x.wicket.isNone then s.modDir d (fun x => { x with wicket := some f }) else s)
  else if unitsOf (framesOf (vget x.transit f.cl [])) + f.units ≤ poolUnits f.cl then
    (s.modDir d (fun x => { x with transit := vmod x.transit f.cl (fun q => q ++ [s.queue f]) })).joined
  else s

/-- R336: an ENUM goes on as transit traffic of the ring on which it arrived, turned at a fold where one lies. -/
def State.enumOn (s : State) (d : Nat) (f : Frame) (wicket : Bool) (next excess : Nat) (gwserial : W64) : State :=
  let p := enumPayload next excess gwserial
  s.enqueueTransit d { f with
    hops := min 255 (f.hops + 1), wrapped := f.wrapped || s.turned d, payload := p ++ f.payload.drop p.length } wicket

/-- R336: this node has not seen this ENUM: it comes unturned, or nothing of its pass has been seen here, or its NEXT shows that it has
not passed here. -/
def State.enumFirst (s : State) (f : Frame) (next : Nat) : Bool :=
  !f.wrapped ||
  match s.ring.enumId with
  | none => true
  | some (some id) => decide (next ≤ id.toNat)
  | some none => decide (next ≤ 255)

/-- R336, R339: an ENUM arrives on a ring; it came in on the port across from that ring's own. -/
def State.enumIn (s : State) (d : Nat) (f : Frame) (wicket : Bool) : State :=
  let next := leField f.payload 0 2
  let excess := leField f.payload 2 1
  let gwserial := BitVec.ofNat 64 (leField f.payload 3 8)
  if s.master then
    let s := s.freeFrame d f wicket
    if gwserial ≠ s.chip.serial ∨ ¬ s.ring.enumBusy then s
    else if s.ring.enumPort.val = 1 - d ∧ ¬ s.ring.enumSecond then
      if s.portUp d then (s.modRing (fun r => { r with enumSecond := true })).sendEnum d next excess gwserial
      else s.enumEnd next excess
    else s.enumEnd next excess
  else if s.ring.stopped ∨ ¬ s.enumFirst f next then s.enumOn d f wicket next excess gwserial
  else
    let id : Option (BitVec 8) := if next ≤ 255 then some (BitVec.ofNat 8 next) else none
    let s := s.modRing (fun r => { r with node := none, enumId := some id, bcastSeen := [] })
    if next ≤ 255 then s.enumOn d f wicket (next + 1) excess gwserial else s.enumOn d f wicket next (min 255 (excess + 1)) gwserial

/-- ENUM_RX: the row does not give the header's SEQ and STAMP, which take free values (log 10). -/
def execEnumRx (ring : RingId) (next : BitVec 16) (excess : BitVec 8) (gwserial : BitVec 64) (path : Travel)
    (s : State) : Out :=
  if ¬ s.ringOn then .next s
  else
    let (w, s) := s.drawWord
    let f := Frame.make 1 1 0 (enumPayload next.toNat excess.toNat gwserial)
    .next (s.enumIn ring.val { f with hops := path.hops.toNat, wrapped := path.wrapped, seq := w.extractLsb' 0 32,
                                      stamp := w.extractLsb' 32 16 } false)

/-- ENUM_DONE_RX. -/
def execEnumDoneRx (_nodes : BitVec 16) (_gwserial : BitVec 64) (s : State) : Out := .next (if s.ringOn then s.enumDone else s)

/-- R337: JOIN_TIMER. -/
def execJoinTimer (s : State) : Out :=
  if ¬ s.ringOn ∨ s.gateway ∨ s.ring.node.isSome ∨ ¬ s.ring.everMarked ∨ s.ring.isolated then .next s
  else .next (s.insert { Frame.make 1 3 0 (toBytes 8 s.chip.serial.toNat) with noid := true })

/-- R337: the lowest ID that no node holds. -/
def State.freeId (s : State) : Option Nat :=
  (List.range 256).find? (fun i => decide (s.ring.nodes ≤ i ∧ 1 ≤ i) && !s.ring.assigned.any (fun a => a.id.toNat == i))

/-- R337: an ID that a serial which the gateway has not assigned held in the current enumeration: no frame told the gateway, so
whether, and which of those that it has given no other serial, is free (log 10). -/
def State.heldBefore (s : State) (known : Bool) (w : W64) : Option Nat :=
  let i := 1 + w.toNat % (min s.ring.nodes 256 - 1)
  if known ∧ 1 < s.ring.nodes ∧ ¬ s.ring.assigned.any (fun a => a.id.toNat == i) then some i else none

/-- R337: a node that gets no ID is counted in OVER, once in an enumeration. -/
def State.countOver (s : State) (serial : W64) : State :=
  if s.ring.overJoin.contains serial then s
  else (s.modRing (fun r => { r with overJoin := r.overJoin ++ [serial] })).setField (aRing 0x14) 15 8
    (min 255 (s.field (aRing 0x14) 15 8 + 1))

/-- R337: a JOIN reaches the gateway. -/
def State.join (s : State) (serial : W64) : State :=
  if ¬ s.master then s
  else
    let (known, s) := s.drawBool
    let (w, s) := s.drawWord
    let held : Option Nat := match s.ring.assigned.find? (fun a => a.serial == serial) with
      | some a => some a.id.toNat
      | none => s.heldBefore known w
    match (match held with | some i => some i | none => s.freeId) with
    | none => s.countOver serial
    | some i =>
      let s := s.modRing (fun r => { r with assigned := r.assigned.filter (fun a => a.serial != serial) ++ [{ serial := serial, id := BitVec.ofNat 8 i }] })
      let s := s.broadcast 4 (toBytes 8 serial.toNat ++ [BitVec.ofNat 8 i])
      s.sendNotice (if held.isSome then 0 else 1) i 0

/-- JOIN_RX. -/
def execJoinRx (serial : BitVec 64) (s : State) : Out := .next (if s.ringOn then s.join serial else s)
/-- ASSIGN_RX. -/
def execAssignRx (serial : BitVec 64) (id : BitVec 8) (s : State) : Out := .next (if s.ringOn then s.assign serial id else s)
/-- NOTICE_RX. -/
def execNoticeRx (kind : BitVec 8) (node : BitVec 8) (_port : BitVec 8) (s : State) : Out :=
  .next (if s.ringOn then s.notice kind.toNat node.toNat else s)

/-- R338: NODE_ISOLATED. -/
def execNodeIsolated (s : State) : Out :=
  if ¬ s.ringOn ∨ s.ring.isolated then .next s
  else
    let s := (s.modRing (fun r => { r with isolated := true })).ringCause 5
    .next (if s.ttSrc = 1 then s.ttLost else s)

/-! ## Folds (R344, R346, R347) -/

/-- R344, R350: a frame of the output queue of a port that folds is turned with WRAPPED, or, turned before, discarded; an ENUM is never
removed (R336). -/
def State.turnQueue (s : State) (fs : List Queued) : List Queued × State :=
  fs.foldl (fun acc q =>
    let f := q.frame
    if f.wrapped ∧ ¬ (f.cl = 0 ∧ f.type = 1) then (acc.1, if f.bcast then acc.2 else acc.2.ringDrop 11)
    else (acc.1 ++ [{ q with frame := { f with wrapped := true } }], acc.2)) ([], s)

/-- R344: PORT_FOLD: the port's ring is turned onto the other, NOTICE wrap is sent, the fold is counted; a lane whose
retraining was planned now trains (R347). -/
def execPortFold (p : PortId) (s : State) : Out :=
  let x := s.portOf p.val
  if ¬ s.ringOn ∨ x.folded ∨ ¬ (x.failed ∨ x.planned) then .next s
  else
    let d := p.val
    let s := s.modPort d (fun x => { x with folded := true })
    let s := (List.range 4).foldl (fun s c =>
      let was := vget (s.dir d).transit c []
      let t := s.turnQueue was
      let s := (t.2.modDir d (fun y => { y with transit := vset y.transit c t.1 })).freeUnits d c
        (unitsOf (framesOf was) - unitsOf (framesOf t.1))
      let l := s.turnQueue (vget (s.dir d).loc c [])
      let s := l.2.modDir d (fun y => { y with loc := vset y.loc c [] })
      s.modDir (1 - d) (fun y => { y with loc := vmod y.loc c (fun q => q ++ l.1) })) s
    let s := match (s.dir d).wicket with
      | some f =>
        let t := s.turnQueue [s.queue f]
        t.2.modDir d (fun y => { y with wicket := t.1.head?.map Queued.frame })
      | none => s
    let s := s.count (aRing 0x20)
    let s := [d, d + 2].foldl (fun s n =>
      if ((s.laneOf n).txRetrain ∨ (s.laneOf n).rxRetrain) ∧ s.laneUp n then
        (s.modLane n (fun l => { l with txRetrain := false, rxRetrain := false })).laneDown n .training
      else s) s
    .next (match s.nodeNum with
      | some me => s.sendNotice 2 me d
      | none => s)

/-- R346: the wait-to-restore time of a port in timer cycles: units of 100 ms, 0 taken as 1. -/
def State.restoreWait (s : State) (p : Nat) : Nat := max 1 (s.field (aRing 0x18) (8 * p + 7) (8 * p)) * 10000000

/-- R346, R347: a folded port may unfold: it has been in service for the wait-to-restore time, which a planned wrap does without, with
its delay measured, and the other end has sent 4 codewords without RF. -/
def State.mayUnfold (s : State) (p : Nat) : Bool :=
  let x := s.portOf p
  x.folded && !x.failed && (x.planned || decide (x.upSince + s.restoreWait p ≤ s.tmr.cycles)) &&
    [p, p + 2].any (fun n => s.laneUp n && !(s.laneOf n).delays.isEmpty && decide (4 ≤ (s.laneOf n).goodRun))

/-- R346: PORT_UNFOLD, at the common marker; NOTICE heal is sent. -/
def execPortUnfold (p : PortId) (s : State) : Out :=
  if ¬ s.ringOn ∨ ¬ s.mayUnfold p.val then .next s
  else
    let s := s.modPort p.val (fun x => { x with folded := false, planned := false })
    .next (match s.nodeNum with
      | some me => s.sendNotice 3 me p.val
      | none => s)

/-! ## Bays (R329 to R332, R341, R355 to R360) -/

/-- R331: the whole codewords of one bay beside the 129 of the SAFE region on a port, at its rate and lanes in service. -/
def State.bayWords (s : State) (p : Nat) : Nat :=
  match s.portLane p with
  | none => 0
  | some n =>
    let r := (s.laneOf n).rate.toNat
    (if s.bonded p then (if r = 3 then 5147 else if r = 2 then 2573 else 1286)
     else if r = 3 then 2573 else if r = 2 then 1286 else 643) - 129

/-- R355: bytes that the DATA codewords of one bay carry on a port. -/
def State.bayBytes (s : State) (p : Nat) : Nat := s.bayWords p * 624

/-- R358: a local frame has waited longer than CONG_WAIT, in units of 100 ns. -/
def State.waitedLong (s : State) (q : Queued) : Bool := decide (s.field (aRing 0x208) 15 0 * 10 < s.tmr.cycles - q.since)

/-- R358: an output is congested in the bay that ends: a local TEN frame that it sent in it, or that still waits, has waited longer. -/
def State.congestedNow (s : State) (d : Nat) : Bool :=
  (s.dir d).waited || ((vget (s.dir d).loc 2 []) ++ (vget (s.dir d).loc 3 [])).any s.waitedLong

/-- R358: w, 0 taken as 1. -/
def State.weight (s : State) : Nat := max 1 (s.field (aRing 0x208) 31 24)

/-- R358, R359: the beacon sent upstream for a ring: the more restrictive of the node's own and the one from downstream. -/
def State.beaconOut (s : State) (d : Nat) : Option Beacon :=
  let x := s.dir d
  match s.ring.node, s.congestedNow d with
  | some me, true =>
    let own : Beacon := { node := me, rate := max (x.addBytes / s.weight) (x.capBytes / max 1 s.topoNodes) }
    match x.beacon with
    | some b => if own.rate ≤ b.rate then some own else some b
    | none => some own
  | _, _ => x.beacon

/-- R329 to R331, R359: a bay begins on the output of a ring with a marker: the rest of what was begun ends, the beacon is sent
upstream, the bay's counts start anew, and the SAFE region follows the marker. -/
def State.bayOn (s : State) (d : Nat) (m : Marker) : State :=
  let b := s.beaconOut d
  let c := s.congestedNow d
  let s := (s.sendRest d).sendWords d [⟨2, 0, markerBytes m⟩]
  let s := s.modDir d (fun x => { x with
    beaconTx := b, congested := c, waited := false, ctrlBytes := 0, addBytes := 0, capBytes := 0, tenTx := [], fairHit := false
    markerTx := some m, markerAt := some s.tmr.cycles, safeOut := [] })
  s.modPort d (fun x => { x with txEnd := s.nowPs + s.wordsPs d 129 })

/-- R332, R363: a node with an ID writes its slot of an output's region; the bay is one of those of the cell that is queued. -/
def State.writeSlot (s : State) (d : Nat) : State :=
  match s.nodeNum with
  | none => s
  | some me =>
    let c := s.ownCell
    (s.modDir d (fun x => { x with safeOut := AMap.set x.safeOut me c })).modRing (fun r => { r with
      slotTx := c, safeTx := r.safeTx.map (fun t => (t.1, t.2.1, true)) })

/-- R363: a bay begins: one more bay of the queued cell has passed, if it was sent in the last one. -/
def State.bayPassed (s : State) : State :=
  match s.ring.safeTx with
  | some (c, n, true) => s.modRing (fun r => { r with safeTx := if n ≤ 1 then none else some (c, n - 1, false) })
  | _ => s

/-- R329, R340, R341, R363: a bay begins at this node. -/
def State.newBay (s : State) (time : W64) : State :=
  let s := s.bayPassed
  s.modRing (fun r => { r with times := (time :: r.times).take 128, lanes := r.lanes.map (fun l => { l with measured := false }) })

/-- R329: the gateway's bay on the output of a ring: the marker and the 128 SAFE codewords. -/
def State.sendBay (s : State) (d : Nat) (m : Marker) : State :=
  if ¬ s.portUp d then s
  else
    let s := (s.bayOn d m).writeSlot d
    s.sendWords d ((List.range 128).map (safeWord (s.dir d).safeOut))

/-- R329: the town time at which the bay of now starts: a multiple of 125,000 ns. -/
def State.bayTime (s : State) : W64 := BitVec.ofNat 64 (s.tt.now.toNat / 125000 * 125000)

/-- R329, R336: BAY_START: at each multiple of 125,000 ns of town time the gateway sends a marker and the SAFE region on each ring port
in service. -/
def execBayStart (s : State) : Out :=
  if ¬ s.ringOn ∨ ¬ s.master ∨ s.ring.times.head? = some s.bayTime then .next s
  else
    let m : Marker := { time := s.bayTime, corr := 0, gwserial := s.chip.serial, hops := 0,
                        flags := if s.ring.enumerated then 2 else 0, nodes := BitVec.ofNat 16 s.ring.nodes }
    let s := (((s.newBay m.time).sendBay 0 m).sendBay 1 m)
    .next (s.modRing (fun r => { r with bays := if s.portUp 0 ∨ s.portUp 1 then r.bays + 1 else r.bays }))

/-- R338: a marker ends isolation. -/
def State.marked (s : State) : State :=
  let s := s.modRing (fun r => { r with everMarked := true })
  if s.ring.isolated then (s.modRing (fun r => { r with isolated := false })).ringCause 6 else s

/-- R339: a marker of another gateway reaches a gateway. -/
def State.conflict (s : State) (other : W64) : State :=
  let s := if s.flag (aRing 0x10) 8 then s else (s.orReg (aRing 0x10) 0x100).ringCause 7
  if other.toNat < s.chip.serial.toNat then
    s.modRing (fun r => { r with stopped := true, node := none, enumBusy := false })
  else s

/-- R340: D of the span on which a ring's frames arrive, in 2^−6 ns. -/
def State.spanDelay (s : State) (d : Nat) : Int :=
  match s.portLane (1 - d) with
  | some n => s.laneDelay n
  | none => 0

/-- R341: a lantern takes town time from a marker: TIME + CORR + D. -/
def State.takeTime (s : State) (d : Nat) (m : Marker) (bayNew : Bool) : State :=
  let better : Bool := match s.ring.taken with
    | some (h, _) => decide (m.hops.toNat < h.toNat)
    | none => true
  if ¬ (bayNew ∨ better) then s
  else
    let src := m.time.toNat + (m.corr.toInt + s.spanDelay d * 1024) / 65536
    let s := s.modRing (fun r => { r with taken := some (m.hops, if d = 0 then 0 else 1) })
    let s := s.setField (aRing 0x10) 26 25 (d + 1)
    if s.ttSrc = 1 then s.ttMeasure (src - s.tt.now.toNat) else s

/-- R330, R341, R344: a node relays a marker, or turns it back at its fold. -/
def State.relay (s : State) (d : Nat) (m : Marker) (residence : Nat) : State :=
  let down := s.portDown d
  let out := if down then 1 - d else d
  let m := { m with
    corr := m.corr + BitVec.ofInt 64 (s.spanDelay d * 1024 + residence)
    hops := satInc m.hops, flags := if down then m.flags ||| 1 else m.flags }
  (s.bayOn out m).writeSlot out

/-- R330: MARKER_RX. -/
def execMarkerRx (ring : RingId) (m : Marker) (residence : Nat) (s : State) : Out :=
  if ¬ s.ringOn then .next s
  else
    let d := ring.val
    let s := s.marked
    let s := s.setField (aRing 0x10) 24 16 (m.nodes.toNat % 512)
    let s := s.modDir d (fun x => { x with foldSeen := bit m.flags 0, safeIdx := 0 })
    if s.master then
      let s := s.modRing (fun r => { r with lastMarker := some ring })
      .next (if m.gwserial = s.chip.serial then s else s.conflict m.gwserial)
    else
      let bayNew := !s.ring.times.contains m.time
      let s := if bayNew then s.newBay m.time else s
      let s := s.takeTime d m bayNew
      let s := s.modRing (fun r => { r with lastMarker := r.taken.map (fun x => x.2) })
      .next (s.relay d m residence)

/-- R330, R344: a cell of the region that passes goes on in the output's region, but for the node's own slot. -/
def State.relayCell (s : State) (d k : Nat) (cell : List Byte) : State :=
  if s.master ∨ s.nodeNum = some k then s
  else s.modDir (if s.portDown d then 1 - d else d) (fun x => { x with safeOut := AMap.set x.safeOut k (cell.take 256) })

/-- R332, R364, R356: a cell is accepted. -/
def State.acceptCell (s : State) (k : Nat) (cell : List Byte) : State :=
  let flags := leField cell 2 1
  let seq := BitVec.ofNat 32 (leField cell 4 4)
  match s.nodeNum with
  | none => s
  | some me =>
    if flags % 2 = 0 ∨ (leField cell 0 1 ≠ me ∧ flags / 2 % 2 = 0) ∨ AMap.get? s.ring.safeLast k = some seq then s
    else
      let pend := aRing (0x910 + 4 * (k / 32))
      let s := if s.flag pend (k % 32) then s.ringCount 16 else s
      let s := s.modRing (fun r => { r with
        safeLast := AMap.set r.safeLast k seq, safeRx := AMap.set r.safeRx k (cell.take 256) })
      (s.hwSet pend (BitVec.ofNat 32 (2 ^ (k % 32)))).raise 40

/-- R330, R332, R364, R356: SAFE_CELL_RX. -/
def execSafeCellRx (ring : RingId) (slot : BitVec 8) (cell : List (BitVec 8)) (s : State) : Out :=
  .next (if s.ringOn then (s.relayCell ring.val slot.toNat cell).acceptCell slot.toNat cell else s)

/-- R360: BEACON_LAPSE. -/
def execBeaconLapse (ring : RingId) (s : State) : Out := .next (s.modDir ring.val (fun x => { x with beacon := none }))

/-! ## Frames that arrive (R350, R356, R365) -/

/-- R356, R367: a software CTRL frame joins the receive queue; the answer says whether it was placed. -/
def State.ctrlQueue (s : State) (f : Frame) : Bool × State :=
  if 256 < f.length ∨ 64 ≤ s.ring.ctrlRx.length then (false, s.ringDrop 8)
  else (true, (s.modRing (fun r => { r with ctrlRx := r.ctrlRx ++ [f] })).raise 39)

/-- R356, R365 to R367: a CTRL frame is ejected here. -/
def State.ejectCtrl (s : State) (f : Frame) : State :=
  let t := f.type.toNat
  let p := f.payload
  if t = 2 ∨ t = 4 ∨ t = 5 then s.topoFrame t p
  else if t = 3 then s.join (BitVec.ofNat 64 (leField p 0 8))
  else if t = 0x11 then s.ctrlAck f.src (BitVec.ofNat 32 (leField p 0 4))
  else if reliableType f.type then
    if s.placedSeq f.src = some f.seq then s.sendAck f
    else
      let r := if t = 0x10 then
          s.inboxPlace f.src (BitVec.ofNat 16 (leField p 6 2)) (p.getD 5 0) (p.getD 4 0) (BitVec.ofNat 32 (leField p 8 4))
            (bit (p.getD 12 0) 0) (bit (p.getD 12 0) 1)
        else s.ctrlQueue f
      if r.1 then r.2.placed f else r.2
  else if 0xC0 ≤ t then (s.ctrlQueue f).2
  else s.ringDrop 8

/-- R356: a frame is ejected at this node. -/
def State.eject (s : State) (f : Frame) : State :=
  let s := s.ringCount (4 + f.cl)
  let t := f.type.toNat
  match f.cl with
  | 0 => s.ejectCtrl f
  | 1 =>
    if t = 1 ∨ t = 2 then s.farRequest f
    else if t = 7 then s.queryRx f
    else if 3 ≤ t ∧ t ≤ 8 then s.farResponse f
    else s
  | c => s.tenEgress (t % 4) (c == 2) (f.payload.take (f.length - 16))

/-- R350: an undeliverable frame ends here; a broadcast one in silence. -/
def State.endFrame (s : State) (d : Nat) (f : Frame) (wicket : Bool) : State :=
  (if f.bcast then s else s.ringDrop 11).freeFrame d f wicket

/-- R350 steps 2 to 5: a frame that is not ejected here goes on. A frame for a port that has failed and not yet folded waits for the
fold (R344), unless it has been folded before. -/
def State.passOn (s : State) (d : Nat) (f : Frame) (wicket : Bool) : State :=
  let mine := s.nodeNum == some f.src.toNat && !f.noid
  if ¬ f.wrapped ∧ mine then s.endFrame d f wicket
  else if s.portDown d ∧ (f.wrapped ∨ s.portDown (1 - d)) then s.endFrame d f wicket
  else
    let g := { f with wrapped := f.wrapped || s.turned d }
    if ¬ f.wrapped ∧ ¬ s.portDown d ∧ 255 ≤ f.hops then s.endFrame d f wicket
    else if s.tooOld f then (s.ringDrop 10).freeFrame d f wicket
    else s.enqueueTransit d { g with hops := min 255 (f.hops + 1) } wicket

/-- R350: FRAME_RX. -/
def execFrameRx (ring : RingId) (a : Arrival) (s : State) : Out :=
  let d := ring.val
  let f := a.frame
  let wicket := a.wicket
  if ¬ s.ringOn ∨ f.cls = 0 ∨ 4 < f.cls.toNat then .next s
  else if f.cl = 0 ∧ f.type = 1 then
    .next (s.enumIn d f wicket)
  else if f.bcast ∧ f.cl = 0 then
    let s := if s.ring.bcastSeen.contains (f.src.toNat, f.seq) then s
      else (s.modRing (fun r => { r with bcastSeen := (f.src.toNat, f.seq) :: r.bcastSeen })).eject f
    .next (s.passOn d f wicket)
  else if s.nodeNum = some f.dest.toNat then .next ((s.eject f).freeFrame d f wicket)
  else .next (s.passOn d f wicket)

/-! ## Frames that leave (R352 to R355, R360) -/

/-- R344: the rings whose frames leave on the output of a ring: its own unless its port is down, and the other one's when
that one is turned. -/
def State.feeds (s : State) (o : Nat) : List Nat := (if s.turned o then [] else [o]) ++ (if s.turned (1 - o) then [1 - o] else [])

/-- R352: the credits of a class suffice for a frame. -/
def State.credit (s : State) (o : Nat) (f : Frame) : Bool :=
  let x := s.dir o
  decide ((vget x.sent f.cl 0 - vget x.credited f.cl 0).toNat + f.units ≤ poolUnits f.cl)

/-- R355: a FAR frame waits at an output. -/
def State.farWaits (s : State) (o : Nat) : Bool :=
  (s.feeds o).any (fun d => (vget (s.dir d).transit 1 []) != []) || vget (s.dir o).loc 1 [] != []

/-- R355: CTRL may use 90 % of the bay's DATA codewords while FAR waits. -/
def State.ctrlHeld (s : State) (o : Nat) (f : Frame) : Bool :=
  f.cl == 0 && s.farWaits o && decide (s.bayBytes o * 9 / 10 < (s.dir o).ctrlBytes + f.length)

/-- R349, R360: the path of a frame for a node, inserted on a ring, crosses the output of node c: c lies on the way, before the end. -/
def State.crosses (s : State) (o dest c : Nat) : Bool :=
  match s.nodeNum, s.topoNodes with
  | some me, n + 1 =>
    let dist := fun (x : Nat) => if o = 0 then (x + (n + 1) - me % (n + 1)) % (n + 1) else (me + (n + 1) - x % (n + 1)) % (n + 1)
    decide (dist c < dist dest)
  | _, _ => false

/-- R360: the TEN bytes inserted in this bay whose path crosses the output of node c. -/
def State.limited (s : State) (o c : Nat) : Nat :=
  ((s.dir o).tenTx.filter (fun x => s.crosses o x.1 c)).foldl (fun n x => n + x.2) 0

/-- R360: the beacon holds back a local TEN frame. -/
def State.fairHeld (s : State) (o : Nat) (f : Frame) : Bool :=
  match (s.dir o).beacon with
  | some b => f.isTen && s.crosses o f.dest.toNat b.node.toNat &&
      decide (s.weight * b.rate < s.limited o b.node.toNat + f.length)
  | none => false

/-- R361: aged TEN-L frames of an input are dropped, in its pool and in its wicket. -/
def State.dropAged (s : State) (d : Nat) : State :=
  let q := vget (s.dir d).transit 3 []
  let old := framesOf (q.filter (fun x => s.tooOld x.frame))
  let w := (s.dir d).wicket.any s.tooOld
  let s := s.modDir d (fun x => { x with
    transit := vset x.transit 3 (q.filter (fun x => !s.tooOld x.frame)), wicket := if w then none else x.wicket })
  let s := if w then s.ringDrop 10 else s
  old.foldl (fun s f => (s.ringDrop 10).freeUnits d 3 f.units) s

/-- R367: the software CTRL frame that may leave on a ring next: the oldest routed there whose destination has no reliable
frame outstanding. -/
def State.nextSoft (s : State) (o : Nat) : Option Queued :=
  s.ring.ctrlTx.find? (fun q => s.ring.node.isSome &&
    decide ((if s.turned (s.route q.frame) then 1 - s.route q.frame else s.route q.frame) = o) &&
    !(reliableType q.frame.type && s.ring.reliable.any (fun r => r.frame.dest == q.frame.dest)))

/-- R354, R335: the oldest local frame of a class; a node without an ID inserts JOIN alone. -/
def State.nextLocal (s : State) (o c : Nat) : Option Queued :=
  oldestQueued ((vget (s.dir o).loc c []).filter (fun q => s.ring.node.isSome || q.frame.noid))

/-- Where the next frame of an output comes from. -/
inductive Pick where
  | wicket (d : Nat) (f : Frame)
  | transit (d : Nat) (q : Queued)
  | loc (q : Queued)
  | soft (q : Queued)
deriving DecidableEq, Repr

/-- The frame of a candidate. -/
def Pick.frame : Pick → Frame
  | .wicket _ f => f
  | .transit _ q | .loc q | .soft q => q.frame

/-- R354: the oldest transit frame of a class at an output, and the ring on which it arrived. -/
def State.nextTransit (s : State) (o c : Nat) : Option Pick :=
  let heads := (s.feeds o).filterMap (fun d => (oldestQueued (vget (s.dir d).transit c [])).map (fun q => (d, q)))
  match oldestQueued (heads.map (fun x => x.2)) with
  | some q => (heads.find? (fun x => x.2 == q)).map (fun x => .transit x.1 x.2)
  | none => none

/-- R354: the oldest local frame of a class at an output, those of the software transmit queue among those of CTRL. -/
def State.nextOwn (s : State) (o c : Nat) : Option Pick :=
  match s.nextLocal o c, (if c = 0 then s.nextSoft o else none) with
  | some a, some b => some (if b.ord < a.ord then .soft b else .loc a)
  | some a, none => some (.loc a)
  | none, some b => some (.soft b)
  | none, none => none

/-- R354: the candidates of an output in order. -/
def State.candidates (s : State) (o : Nat) : List Pick :=
  ((s.feeds o).filterMap (fun d => (s.dir d).wicket.map (Pick.wicket d))) ++
  (List.range 4).flatMap (fun c => (s.nextTransit o c).toList ++ (s.nextOwn o c).toList)

/-- R331, R352, R353, R355, R360: a candidate may begin; `some true`: it takes the downstream wicket. -/
def State.mayBegin (s : State) (o : Nat) (c : Pick) : Option Bool :=
  let f := c.frame
  if s.ctrlHeld o f ∨ ¬ s.quiet o f then none
  else match c with
    | .wicket _ _ | .transit _ _ => if s.credit o f then some false else if (s.dir o).wicketFree then some true else none
    | .loc _ | .soft _ => if s.fairHeld o f ∨ ¬ s.credit o f then none else some false

/-- R333, R352, R358: a frame begins on an output; `own`: it is inserted here, and has waited. -/
def State.begin (s : State) (o : Nat) (f : Frame) (wicket : Bool) (own : Option Queued) : State :=
  let long := own.any (fun q => f.isTen && s.waitedLong q)
  let stop := s.frameEnd o f
  let s := s.modDir o (fun x => { x with
    sent := if wicket then x.sent else vmod x.sent f.cl (fun v => v + BitVec.ofNat 32 f.units)
    wicketFree := x.wicketFree && !wicket
    ctrlBytes := if f.cl = 0 then x.ctrlBytes + f.length else x.ctrlBytes
    capBytes := if f.isTen then x.capBytes + f.length else x.capBytes
    addBytes := if f.isTen ∧ own.isSome then x.addBytes + f.length else x.addBytes
    tenTx := if f.isTen ∧ own.isSome then x.tenTx ++ [(f.dest.toNat, f.length)] else x.tenTx
    waited := x.waited || long
    lastTx := some f })
  let s := (s.sendFrame o f).modPort o (fun x => { x with txEnd := stop })
  if own.isSome then s.ringCount f.cl else s

/-- R331, R333: nothing may begin: what has begun ends with filler, or an IDLE codeword is sent. -/
def State.sendIdle (s : State) (o : Nat) : State :=
  if (s.portOf o).txBuf = [] then s.sendWords o [⟨4, 0, []⟩] else s.sendRest o

/-- R354: FRAME_TX_START: the first candidate that is permitted begins. -/
def execFrameTxStart (ring : RingId) (s : State) : Out :=
  let o := ring.val
  if ¬ s.ringOn ∨ s.portDown o then .next s
  else
    let s := (s.feeds o).foldl State.dropAged s
    let cs := s.candidates o
    let held := cs.any (fun c => match c with | .loc q => s.fairHeld o q.frame | _ => false)
    let s := if held ∧ ¬ (s.dir o).fairHit then (s.modDir o (fun x => { x with fairHit := true })).ringCount 17 else s
    match cs.findSome? (fun c => (s.mayBegin o c).map (fun w => (c, w))) with
    | none => .next (s.sendIdle o)
    | some (.wicket d f, w) => .next ((s.modDir d (fun x => { x with wicket := none })).begin o f w none)
    | some (.transit d q, w) =>
      let f := q.frame
      let s := s.modDir d (fun x => { x with transit := vmod x.transit f.cl (fun l => l.erase q) })
      .next ((s.begin o f w none).freeUnits d f.cl f.units)
    | some (.loc q, w) =>
      .next ((s.modDir o (fun x => { x with loc := vmod x.loc q.frame.cl (fun l => l.erase q) })).begin o q.frame w (some q))
    | some (.soft q, w) =>
      let s := s.modRing (fun r => { r with ctrlTx := r.ctrlTx.erase q })
      let (g, s) := s.stampFrame q.frame
      let s := if reliableType g.type then s.modRing (fun r => { r with reliable := r.reliable ++ [{ frame := g, resends := 0 }] }) else s
      .next (s.begin o { g with wrapped := s.turned (s.route g) } w (some q))

/-! ## Tenant insertion (R362, R376) -/

/-- R362: a TEN frame joins its local insertion queue of 128 KiB, or is dropped and counted. -/
def State.insertTen (s : State) (f : Frame) : State :=
  let queued := fun (d : Nat) => (vget (s.dir d).loc f.cl []).foldl (fun a q => a + q.frame.length) 0
  if s.ring.node.isNone ∨ 131072 < queued 0 + queued 1 + f.length then s.ringDrop 9 else s.insert f

/-- R362, R382: whether a TEN frame has room in its local insertion queue. -/
def State.tenRoom (s : State) (f : Frame) : Bool :=
  let queued := fun (d : Nat) => (vget (s.dir d).loc f.cl []).foldl (fun a q => a + q.frame.length) 0
  s.ring.node.isSome && decide (queued 0 + queued 1 + f.length ≤ 131072)

/-! ## Queue registers (R363, R367) -/

/-- The bytes of a window of 256 bytes kept in registers. -/
def State.window256 (s : State) (off : Nat) : List Byte := (List.range 64).flatMap (fun k => toBytes 4 (s.reg (aRing (off + 4 * k))).toNat)

/-- R363: a write of RING_SAFE_TX_CTRL. -/
def State.safeGo (s : State) (d : W32) : State :=
  let s := s.store (aRing 0x900) d
  if ¬ bit d 8 then s
  else
    let w := s.window256 0xC00
    let seq := s.ring.safeSeq + 1
    let fl : Byte := ((w.getD 2 0) &&& 2) ||| 1
    let cell := [w.getD 0 0, 0, fl, 0] ++ toBytes 4 seq.toNat ++ w.drop 8
    let r := s.field (aRing 0x900) 3 0
    let n := if r = 0 then 1 else min r 8
    s.modRing (fun x => { x with safeTx := some (cell, n, false), safeSeq := seq })

/-- R367: a write of RING_CTRL_TX_PUSH. -/
def State.ctrlPush (s : State) (d : W32) : State :=
  if ¬ bit d 0 ∨ 16 ≤ s.ring.ctrlTx.length then s
  else
    let w := s.window256 0xA00
    let n := min 240 (leField w 2 2)
    (s.modRing (fun r => { r with ctrlTx := r.ctrlTx ++ [s.queue (Frame.make 1 (w.getD 1 0) (w.getD 0 0) ((w.drop 16).take n))] })).joined

/-- R367: a write of RING_CTRL_RX_POP. -/
def State.ctrlPop (s : State) (d : W32) : State := if bit d 0 then s.modRing (fun r => { r with ctrlRx := r.ctrlRx.drop 1 }) else s

/-- RING_ENUM_GO. -/
def execRingEnumGo (_who : Initiator) (data : BitVec 32) (s : State) : Out := .next (s.unitAct 19 (fun s => s.enumGo data))
/-- SAFE_TX_GO. -/
def execSafeTxGo (_who : Initiator) (data : BitVec 32) (s : State) : Out := .next (s.unitAct 19 (fun s => s.safeGo data))
/-- RING_CTRL_TX_PUSH. -/
def execRingCtrlTxPush (_who : Initiator) (data : BitVec 32) (s : State) : Out := .next (s.unitAct 19 (fun s => s.ctrlPush data))
/-- RING_CTRL_RX_POP. -/
def execRingCtrlRxPop (_who : Initiator) (data : BitVec 32) (s : State) : Out := .next (s.unitAct 19 (fun s => s.ctrlPop data))

/-- RING_TOPO.STATE. -/
def State.topoState (s : State) : Nat :=
  if ¬ s.portUp 0 ∧ ¬ s.portUp 1 then 0
  else if s.ring.isolated then 1
  else if (s.portOf 0).folded ∨ (s.portOf 1).folded ∨ (s.dir 0).foldSeen ∨ (s.dir 1).foldSeen then 3 else 2

/-- A word of a list of bytes. -/
def wordAt (bs : List Byte) (off : Nat) : W32 := BitVec.ofNat 32 (leField bs off 4)

/-- The far accesses in flight in a phase. -/
def State.farCount (s : State) (f : FarPhase → Bool) : Nat :=
  ((List.range 32).filter (fun i => match (s.stall i).farOp with | some op => f op.phase | none => false)).length

/-- The word that a ring switch register reads. -/
def State.ringView (s : State) (off : Nat) : W32 :=
  let raw := s.reg (aRing off)
  if off = 0 then (match s.ring.node with | some n => 0x80000000 ||| n.zeroExtend 32 | none => 0)
  else if off = 8 then s.chip.serial.truncate 32
  else if off = 0xC then (s.chip.serial >>> 32).truncate 32
  else if off = 0x10 then
    putBit (putBit (putBits raw 2 0 s.topoState) 4 (s.portOf 0).folded) 5 (s.portOf 1).folded
  else if off = 0x14 then (if s.gateway then putBit raw 1 s.ring.enumBusy else 0)
  else if off = 0x204 then
    BitVec.ofNat 32 (s.farCount (fun _ => true) + 256 * s.farCount (fun p => p == .querying) + 0x1000000 * s.ring.farIn.length +
      if s.farCount (fun p => p == .held) = 0 then 0 else 0x80000000)
  else if off = 0x218 then BitVec.ofNat 32 (s.ring.ledger.length + if s.ring.evicted then 0x80000000 else 0)
  else if off = 0x800 then BitVec.ofNat 32 ((16 - s.ring.ctrlTx.length) * 65536)
  else if off = 0x808 then BitVec.ofNat 32 s.ring.ctrlRx.length
  else if off = 0x900 then putBit raw 31 s.ring.safeTx.isSome
  else if 0xB00 ≤ off ∧ off < 0xC00 then
    (match s.ring.ctrlRx.head? with | some f => wordAt f.bytes (off - 0xB00) | none => 0)
  else if 0xD00 ≤ off ∧ off < 0xE00 then
    (match AMap.get? s.ring.safeRx (s.field (aRing 0x930) 7 0) with | some c => wordAt c (off - 0xD00) | none => 0)
  else raw

/-- A write of a ring switch register. -/
def State.ringWrite (s : State) (off : Nat) (d : W32) : State :=
  if off = 0x14 then s.enumGo d
  else if (off = 0x100 ∨ off = 0x104) ∧ s.grantEn then s
  else if (off = 0x110 ∨ off = 0x114) ∧ s.flag (aRing 0x118) 8 then s
  else if off = 0x804 then s.ctrlPush d
  else if off = 0x80C then s.ctrlPop d
  else if off = 0x900 then s.safeGo d
  else s.store (aRing off) d

end Sys2Proof.Machine
end

