-- ==== Sys2Proof/Machine/Tenant.lean ====
section
/-!
DEFINITION. Sys2Proof/Machine/Tenant.lean: the accesses of DMA engines (R296, R297), the tenant ports: ingress, policing,
egress, descriptor rings and timestamps (R374 to R385).
-/
namespace Sys2Proof.Machine

/-! ## DMA (R29, R296, R297) -/

/-- Why an engine's access fails. -/
inductive DmaErr where
  /-- The Screen refused it. -/
  | screen
  /-- It met poison, or nothing is there. -/
  | mem
deriving DecidableEq, Repr

/-- The bytes an engine reads, part by part, or why a part failed. -/
def State.dmaGet (s : State) (cls pa n : Nat) : Except DmaErr (List Byte) × State :=
  (transfer pa n).foldl (fun (acc : Except DmaErr (List Byte) × State) p =>
    match acc.1 with
    | .error _ => acc
    | .ok got =>
      let c := acc.2.screenCheck (Who.dev cls) p.1 .load false
      if ¬ c.1.ok then (.error .screen, c.2)
      else
        let r := c.2.readTarget .dma p.1 p.2
        match r.1 with
        | .ok bs => (.ok (got ++ bs), r.2)
        | .error _ => (.error .mem, r.2)) (.ok [], s)

/-- A write of an engine with the tags of the whole granules it covers: why a part failed, if one did. -/
def State.dmaPut (s : State) (cls pa : Nat) (bs : List Byte) (tags : List Bool) : Option DmaErr × State :=
  let step := fun (acc : Option DmaErr × (List Byte × List Bool) × State) (p : Nat × Nat) =>
    match acc.1 with
    | some _ => acc
    | none =>
      let c := acc.2.2.screenCheck (Who.dev cls) p.1 .store false
      if ¬ c.1.ok then (some .screen, acc.2.1, c.2)
      else match c.2.target p.1 with
        | .none | .regs => (some .mem, acc.2.1, c.2)
        | _ =>
          let rest := (acc.2.1.1.drop p.2, acc.2.1.2.drop (p.2 / 16))
          (none, rest, c.2.writeTarget .dma p.1 (acc.2.1.1.take p.2) (acc.2.1.2.take (p.2 / 16)))
  let r := (transfer pa bs.length).foldl step (none, (bs, tags), s)
  (r.1, r.2.2)

/-- R116: a buffer capability that an engine accepts, with a right. -/
def bufOk (c : Capv) (perms : List Nat) : Bool :=
  c.tag && decide (Cap.kind c = 0) && !Cap.has c permNoExport && perms.all (fun p => Cap.has c p)

/-! ## Ports -/

/-- A tenant port. -/
def State.tport (s : State) (n : Nat) : TPortState := vget s.tp n TPortState.init
/-- Change a tenant port. -/
def State.modTp (s : State) (n : Nat) (f : TPortState → TPortState) : State := { s with tp := vmod s.tp n f }
/-- A port receives and sends. -/
def State.tpOn (s : State) (n : Nat) : Bool := s.unitReady (8 + n) && s.flag (aTp n 0) 0
/-- A counter of a port. -/
def State.tpCount (s : State) (n i : Nat) (k : Nat := 1) : State := s.count (aTp n (0x100 + 8 * i)) k
/-- The nanoseconds of the timer island. -/
def State.islandNs (s : State) : Nat := 10 * s.tmr.cycles

/-! ## Policing (R377) -/

/-- A bucket's depth in thousandths of a bit. -/
def bucketMax (w : W32) : Nat := max 1 (bits w 31 16) * 8192000
/-- A bucket after some nanoseconds at RATE Mbit/s: each nanosecond adds RATE thousandths of a bit. -/
def bucketFill (w : W32) (level ns : Nat) : Nat := min (bucketMax w) (level + min 25000 (bits w 15 0) * ns)

/-- R377: both buckets are filled to the present. -/
def State.refill (s : State) (n : Nat) : State :=
  let ns := s.islandNs
  s.modTp n (fun t =>
    { t with
      bucketH := bucketFill (s.reg (aTp n 0x10)) t.bucketH (ns - t.bucketAt)
      bucketL := bucketFill (s.reg (aTp n 0x14)) t.bucketL (ns - t.bucketAt)
      bucketAt := ns })

/-- R377: a frame of `len` bytes with FCS is admitted, or discarded and counted. -/
def State.police (s : State) (n : Nat) (high : Bool) (len : Nat) : Bool × State :=
  let s := s.refill n
  let w := s.reg (aTp n (if high then 0x10 else 0x14))
  let have_ := if high then (s.tport n).bucketH else (s.tport n).bucketL
  let need := len * 8000
  if bits w 15 0 = 0 then (true, s)
  else if have_ < need then (false, s.tpCount n (if high then 6 else 7))
  else
    (true, s.modTp n (fun t => if high then { t with bucketH := t.bucketH - need } else { t with bucketL := t.bucketL - need }))

/-! ## Descriptor rings (R380 to R383) -/

/-- Offsets of a ring: BASE, CTRL, HEAD, TAIL stand at this offset and 8, 12, 16 above. -/
def ringOff (tx : Bool) : Nat := if tx then 0x40 else 0x20

/-- R380: the number of descriptors a ring holds. -/
def State.ringHeld (s : State) (n : Nat) (tx : Bool) : Nat :=
  (s.field (aTp n (ringOff tx + 16)) 15 0 + 65536 - s.field (aTp n (ringOff tx + 12)) 15 0) % 65536

/-- EN of a ring. -/
def State.ringEn (s : State) (n : Nat) (tx : Bool) : Bool := s.flag (aTp n (ringOff tx + 8)) 8

/-- R380: the address of the descriptor at HEAD. -/
def State.descAddr (s : State) (n : Nat) (tx : Bool) : Nat :=
  let k := s.field (aTp n (ringOff tx + 12)) 15 0 % 2 ^ s.field (aTp n (ringOff tx + 8)) 3 0
  (s.pair (aTp n (ringOff tx))).toNat + 32 * k

/-- R383: a ring stops: EN clears, RXERR or TXERR sets. -/
def State.ringStop (s : State) (n : Nat) (tx : Bool) : State :=
  (s.clrReg (aTp n (ringOff tx + 8)) 0x100).hwSet (aTp n 4) (if tx then 0x800 else 0x400)

/-- R380, R383: a descriptor as read: its buffer capability and its bytes 16 to 31. -/
def State.descGet (s : State) (a : Nat) : Option (Capv × List Byte) × State :=
  if ¬ (s.target a).isMem then (none, s)
  else
    let r := s.dmaGet 3 a 32
    match r.1 with
    | .ok bs => (some (⟨BitVec.ofNat 128 (leField bs 0 16), r.2.tagAt a⟩, bs.drop 16), r.2)
    | .error _ => (none, r.2)

/-- R383: bytes 16 to 31 are written back and the descriptor is consumed, or the ring stops. -/
def State.descDone (s : State) (n : Nat) (tx : Bool) (a : Nat) (tail : List Byte) (consume : Bool) : State :=
  if ¬ (s.target a).isMem then s.ringStop n tx
  else
    let r := s.dmaPut 3 (a + 16) tail []
    match r.1 with
    | some _ => r.2.ringStop n tx
    | none =>
      let s := if consume then r.2.modReg (aTp n (ringOff tx + 12)) (fun w => BitVec.ofNat 32 ((bits w 15 0 + 1) % 65536)) else r.2
      (s.hwSet (aTp n 4) (if tx then 0x200 else 0x100)).raise (32 + n)

/-- The descriptor status of a failed access. -/
def DmaErr.code : DmaErr → Nat
  | .screen => 2
  | .mem => 3

/-- R380: writing EN 0: the ring stops after the descriptor in progress, HEAD and TAIL become 0. -/
def State.tpDisable (s : State) (n : Nat) (tx : Bool) : State :=
  let o := ringOff tx
  let s := ((s.clrReg (aTp n (o + 8)) 0x100).setReg (aTp n (o + 12)) 0).setReg (aTp n (o + 16)) 0
  if tx then s.modTp n (fun t => { t with txd := t.txd.map (fun d => { d with live := false }) }) else s

/-- R380: TP_RING_DISABLE. -/
def execTpRingDisable (n : TPort) (tx : Bool) (s : State) : Out := .next (s.unitAct (8 + n.val) (fun s => s.tpDisable n.val tx))

/-! ## Ingress (R376, R381, R382) -/

/-- R376: EtherType of an untagged frame, or the TPID of the outer tag. -/
def etherType (f : List Byte) : Nat := (f.getD 12 0).toNat * 256 + (f.getD 13 0).toNat
/-- R376: the VLAN ID of the outer tag, 0 if untagged. -/
def outerVid (f : List Byte) : Nat :=
  if etherType f = 0x8100 ∨ etherType f = 0x88A8 then ((f.getD 14 0).toNat * 256 + (f.getD 15 0).toNat) % 4096 else 0

/-- R381, R382: the host action: the frame goes to the receive descriptor ring. -/
def State.rxHost (s : State) (n : Nat) (f : List Byte) (high : Bool) : State :=
  if ¬ s.ringEn n false ∨ s.ringHeld n false = 0 then s.tpCount n 8
  else
    let a := s.descAddr n false
    let d := s.descGet a
    match d.1 with
    | none => d.2.ringStop n false
    | some (c, _) =>
      let s := d.2
      let cur := (Cap.addr c).toNat
      let fin := fun (s : State) (code : Nat) =>
        s.descDone n false a (toBytes 2 f.length ++ toBytes 2 (1 + 16 * code) ++ toBytes 2 (outerVid f) ++
          [BitVec.ofNat 8 high.toNat, 0] ++ toBytes 8 s.tt.now.toNat) true
      if ¬ bufOk c [permStore] ∨ ¬ Cap.inBounds c cur 64 then fin s 1
      else
        let room := (Cap.top c - cur).toNat
        let w := s.dmaPut 3 cur (f.take room) []
        match w.1 with
        | some e => fin w.2 e.code
        | none => fin w.2 (if room < f.length then 4 else 0)

/-- R376: the ring action. -/
def State.rxRing (s : State) (f : List Byte) (high : Bool) (dport dnode : Nat) : State :=
  let fr := Frame.make (if high then 3 else 4) (BitVec.ofNat 8 dport) (BitVec.ofNat 8 dnode) f
  if s.ring.node = some (BitVec.ofNat 8 dnode) then s.tenEgress dport high f else s.insertTen fr

/-- R376, R377: a frame from the wire, `f` without its FCS. -/
def State.tpRx (s : State) (n : Nat) (f : List Byte) (fcsOk : Bool) : State :=
  let len := f.length + 4
  if ¬ fcsOk then s.tpCount n 2
  else
    let s := (s.tpCount n 0).tpCount n 1 len
    if len < 64 ∨ s.field (aTp n 0) 31 16 < len then s.tpCount n 3
    else if etherType f = 0x8808 then s.tpCount n 4
    else
      let v := s.reg (aTp n (0x4000 + 4 * outerVid f))
      let high := bit v 2
      match bits v 1 0 with
      | 1 =>
        let p := s.police n high len
        if p.1 then p.2.rxRing f high (bits v 17 16) (bits v 15 8) else p.2
      | 2 =>
        let p := s.police n high len
        if p.1 then p.2.rxHost n f high else p.2
      | _ => s.tpCount n 5

/-- R376: TP_WIRE_FRAME_RX. -/
def execTpWireFrameRx (n : TPort) (f : List (BitVec 8)) (fcsOk : Bool) (s : State) : Out :=
  .next (if s.tpOn n.val then s.tpRx n.val f fcsOk else s)

/-! ## Egress (R379, R381, R384) -/

/-- The FLAGS of a transmit descriptor. -/
def txFlags (tail : List Byte) : Byte := tail.getD 4 0

/-- R384: seconds from the PTP epoch to the town time's zero. -/
def ptpOffset : Nat := 1577836800

/-- Bytes of a frame replaced from an offset, where they lie within it. -/
def patch (f : List Byte) (off : Nat) (bs : List Byte) : List Byte :=
  f.zipIdx.map (fun p => if off ≤ p.2 ∧ p.2 < off + bs.length then bs.getD (p.2 - off) 0 else p.1)

/-- R384: the originTimestamp: 6 bytes of seconds and 4 of nanoseconds in network order. -/
def originTime (now : W64) : List Byte :=
  beBytes 6 (now.toNat / 1000000000 + ptpOffset) ++ beBytes 4 (now.toNat % 1000000000)

/-- R384: what ONESTEP changes in a frame. -/
def oneStep (tail f : List Byte) (now : W64) : List Byte :=
  if bit (txFlags tail) 1 then
    let f := patch f (leField tail 8 2 + 34) (originTime now)
    if leField tail 10 2 = 0 then f else patch f (leField tail 10 2) [0, 0]
  else f

/-- R381, R384: the write-back of a transmit descriptor. -/
def State.txDone (s : State) (n : Nat) (d : TxDesc) (code : Nat) (sent : Bool) : State :=
  let timed := sent && (bit (txFlags d.tail) 0 || bit (txFlags d.tail) 1)
  s.descDone n true d.addr (d.tail.take 2 ++ toBytes 2 (1 + 16 * code) ++ (d.tail.drop 4).take 4 ++
    (if timed then toBytes 8 s.tt.now.toNat else List.replicate 8 0)) d.live

/-- R381, R382: the port takes its next transmit descriptor: it is refused, goes to the ring, or waits for the wire. -/
def State.txTake (s : State) (n : Nat) : State :=
  if ¬ s.ringEn n true ∨ s.ringHeld n true = 0 ∨ (s.tport n).txd.isSome then s
  else
    let a := s.descAddr n true
    let r := s.descGet a
    match r.1 with
    | none => r.2.ringStop n true
    | some (c, tail) =>
      let fl := txFlags tail
      let len := leField tail 0 2
      let cur := (Cap.addr c).toNat
      let d : TxDesc := { addr := a, tail := tail, data := [], live := true }
      let fr := fun (f : List Byte) => Frame.make (if bit fl 3 then 3 else 4) (BitVec.ofNat 8 ((tail.getD 6 0).toNat % 4)) (tail.getD 5 0) f
      if bit fl 2 ∧ ¬ s.tenRoom (fr (List.replicate len 0)) then s
      else if ¬ bit fl 2 ∧ ¬ s.tpLink n then (r.2.tpCount n 11).txDone n d 5 false
      else if ¬ bufOk c [permLoad] ∨ ¬ Cap.inBounds c cur len then r.2.txDone n d 1 false
      else
        let g := r.2.dmaGet 3 cur len
        match g.1 with
        | .error e => g.2.txDone n d e.code false
        | .ok bs =>
          if bit fl 2 then (g.2.insertTen (fr (oneStep tail bs g.2.tt.now))).txDone n d 0 true
          else g.2.modTp n (fun t => { t with txd := some { d with data := bs } })

/-- R381: TP_TX_DESCRIPTOR. -/
def execTpTxDescriptor (n : TPort) (s : State) : Out := .next (if s.tpOn n.val then s.txTake n.val else s)

/-- R379: a frame leaves on the wire: padded to 60 bytes, its FCS appended, counted. -/
def State.wireSend (s : State) (n : Nat) (f : List Byte) : State :=
  let f := f ++ List.replicate (60 - f.length) 0
  let f := f ++ toBytes 4 (crc32 f).toNat
  ((s.tpCount n 9).tpCount n 10 f.length).modTp n (fun t => { t with lastTx := some f })

/-- R379: the wire sends the next frame in strict class order, the two sources of a class one frame each in turn. -/
def State.wireNext (s : State) (n : Nat) : State :=
  let t := s.tport n
  let pick := fun (high : Bool) (q : List (List Byte)) =>
    let d := t.txd.filter (fun d => bit (txFlags d.tail) 3 == high)
    let k := if high then 0 else 1
    match q, d with
    | [], none => none
    | f :: rest, none => some (Sum.inl (f, rest), k)
    | [], some d => some (Sum.inr d, k)
    | f :: rest, some d => if bit t.turn k then some (Sum.inl (f, rest), k) else some (Sum.inr d, k)
  let go := fun (x : Sum (List Byte × List (List Byte)) TxDesc × Nat) =>
    let s := s.modTp n (fun t => { t with turn := putBit t.turn x.2 x.1.isRight })
    match x.1 with
    | .inl (f, rest) =>
      (s.modTp n (fun t => if x.2 = 0 then { t with egressH := rest } else { t with egressL := rest })).wireSend n f
    | .inr d => ((s.modTp n (fun t => { t with txd := none })).wireSend n (oneStep d.tail d.data s.tt.now)).txDone n d 0 true
  match pick true t.egressH with
  | some x => go x
  | none => match pick false t.egressL with
    | some x => go x
    | none => s

/-- R379: TP_WIRE_FRAME_TX. -/
def execTpWireFrameTx (n : TPort) (s : State) : Out := .next (if s.tpOn n.val ∧ s.tpLink n.val then s.wireNext n.val else s)

/-! ## Link, time and registers -/

/-- R375: TP_LINK_CHANGE. -/
def execTpLinkChange (n : TPort) (block fec lf rf : Bool) (s : State) : Out :=
  .next (if s.unitReady (8 + n.val) then s.modTp n.val (fun t => { t with block := block, fecLock := fec, lf := lf, rf := rf }) else s)

/-- R385: a write of TP_PTP_OFFSET. -/
def State.tpPtp (s : State) (n : Nat) (v : W64) : State :=
  if s.gateway ∧ s.field aTtCtrl 1 0 = 2 ∧ s.field aTtCtrl 4 3 = n then s.ttMeasure v.toInt else s

/-- R385: TP_PTP_OFFSET_WRITE. -/
def execTpPtpOffsetWrite (n : TPort) (offset : BitVec 64) (s : State) : Out :=
  .next (s.unitAct (8 + n.val) (fun s => s.tpPtp n.val offset))

/-- The word that a tenant port's register reads. -/
def State.tpView (s : State) (n off : Nat) : W32 :=
  if off = 4 then
    let t := s.tport n
    s.reg (aTp n 4) ||| BitVec.ofNat 32 ((s.tpLink n).toNat + 2 * t.block.toNat + 4 * t.fecLock.toNat + 8 * t.lf.toNat + 16 * t.rf.toNat)
  else s.reg (aTp n off)

/-- A write of a tenant port's register; TP_PTP_OFFSET acts as a whole pair; the buckets fill at the old rate first. -/
def State.tpWrite (s : State) (n off : Nat) (d : W32) : State :=
  if off = 0 then
    let was := s.flag (aTp n 0) 0
    let s := s.store (aTp n 0) d
    if ¬ was ∧ s.flag (aTp n 0) 0 then s.modTp n (fun t => { t with fecUsed := s.flag (aTp n 0) 1 }) else s
  else if (off = 0x20 ∨ off = 0x24) ∧ s.ringEn n false then s
  else if (off = 0x40 ∨ off = 0x44) ∧ s.ringEn n true then s
  else if (off = 0x28 ∨ off = 0x48) ∧ ¬ bit d 8 then (s.store (aTp n off) d).tpDisable n (off == 0x48)
  else if off = 0x60 ∨ off = 0x64 then s
  else if off = 0x10 ∨ off = 0x14 then (s.refill n).store (aTp n off) d
  else s.store (aTp n off) d

end Sys2Proof.Machine
end

