-- ==== Sys2Proof/Machine/Cipher.lean ====
section
/-!
DEFINITION. Sys2Proof/Machine/Cipher.lean: the cipher engine: job slots, checks, operations, preemption, quanta, context
blocks and the random source (R386 to R395, R126).
-/
namespace Sys2Proof.Machine

/-! ## Slots -/

/-- An IDLE slot. -/
def Slot.idleSlot : Slot := { state := .idle, code := 0, prio := 0, order := 0, job := none, ctx := [] }
/-- A slot of the engine. -/
def State.cslot (s : State) (k : Nat) : Slot := vget s.cph.slots k Slot.idleSlot
/-- Change a slot. -/
def State.modSlot (s : State) (k : Nat) (f : Slot → Slot) : State := { s with cph := { s.cph with slots := vmod s.cph.slots k f } }
/-- The address of a slot's descriptor. -/
def State.slotAddr (s : State) (k : Nat) : Nat := (s.pair (aCph (0x100 + 16 * k))).toNat
/-- R389: a slot waits. -/
def SlotState.waits : SlotState → Bool
  | .queued | .preempted => true
  | _ => false
/-- CPH_SLOT_STATUS_s.STATE. -/
def SlotState.num : SlotState → Nat
  | .idle => 0
  | .queued => 1
  | .running => 2
  | .preempted => 3
  | .done => 4

/-- R390: the waiting job that the engine takes next. -/
def State.cphBest (s : State) : Option Nat :=
  (List.range 16).foldl (fun (b : Option Nat) k =>
    let x := s.cslot k
    if ¬ x.state.waits then b
    else match b with
      | none => some k
      | some i =>
        let y := s.cslot i
        if y.prio.toNat < x.prio.toNat ∨ (y.prio = x.prio ∧ x.order < y.order) then some k else b) none

/-- R391, R392: a job waits whose priority meets a test. -/
def State.cphWaiting (s : State) (f : Nat → Bool) : Bool := (List.range 16).any (fun k => (s.cslot k).state.waits && f (s.cslot k).prio.toNat)

/-! ## Operations (R386) -/

/-- R386: what an operation uses: capability, permissions, bytes; none for a reserved OP. -/
def opNeeds (op len auxlen : Nat) (k256 : Bool) : Option (List (Nat × List Nat × Nat)) :=
  let src := (0, [permLoad], len)
  let dst := (1, [permStore], len)
  let key := (2, [permLoad], if k256 then 32 else 16)
  let sig := fun (n : Nat) => [(0, [permLoad], n), (2, [permLoad], 2 * n), (3, [permLoad], 2 * n)]
  let sign := fun (n : Nat) => [(0, [permLoad], n), (1, [permStore], 2 * n), (2, [permLoad], n)]
  match op with
  | 0x01 => some [src, dst, key, (3, [permLoad, permStore], 32 + auxlen)]
  | 0x02 => some [src, dst, key, (3, [permLoad], 32 + auxlen)]
  | 0x03 => some [src, dst, key, (3, [permLoad], 16)]
  | 0x04 => some [src, dst, key, (3, [permLoad], 16)]
  | 0x05 => some [src, dst, key, (3, [permLoad], 16)]
  | 0x10 => some [src, (1, [permStore], 32)]
  | 0x11 => some [src, (1, [permStore], 48)]
  | 0x12 => some [src, (1, [permStore], 32)]
  | 0x20 => some (sig 32)
  | 0x21 => some (sig 48)
  | 0x22 => some (sign 32)
  | 0x23 => some (sign 48)
  | 0x30 => some [(0, [permLoad], 32), (1, [permStore], 32), (2, [permLoad], 32)]
  | 0x40 => some [src, dst]
  | 0x41 => some [(0, [permLoad, permLoadCap], len), (1, [permStore, permStoreCap], len)]
  | 0x50 => some [dst]
  | _ => none

/-- R386: the rule on LEN. -/
def lenOk (op len : Nat) : Bool :=
  match op with
  | 0x04 => len % 16 == 0
  | 0x05 => len % 16 == 0
  | 0x20 => len == 32
  | 0x21 => len == 48
  | 0x22 => len == 32
  | 0x23 => len == 48
  | 0x30 => len == 32
  | 0x41 => true
  | _ => decide (len < 2 ^ 32)

/-- A capability of a job. -/
def JobState.cap (j : JobState) (k : Nat) : Capv := ⟨BitVec.ofNat 128 (leField j.desc (16 * k) 16), j.caps.getD k false⟩
/-- The physical address a capability of a job names. -/
def JobState.at (j : JobState) (k : Nat) : Nat := (Cap.addr (j.cap k)).toNat
/-- OP. -/
def JobState.op (j : JobState) : Nat := leField j.desc 0x50 1
/-- FLAGS. -/
def JobState.flags (j : JobState) : Byte := j.desc.getD 0x51 0
/-- AUXLEN. -/
def JobState.auxlen (j : JobState) : Nat := leField j.desc 0x54 4
/-- LEN. -/
def JobState.len (j : JobState) : Nat := leField j.desc 0x58 8

/-- R387: the reserved fields of a descriptor are 0 and its OP is not reserved. -/
def JobState.wellFormed (j : JobState) : Bool :=
  decide (bits j.flags 7 4 = 0) && decide (leField j.desc 0x52 2 = 0) && decide (leField j.desc 0x60 16 = 0) &&
    (opNeeds j.op j.len j.auxlen (bit j.flags 3)).isSome

/-- R388: CTX covers 512 bytes aligned to 64, with LOAD and STORE, in Close SRAM or fitted DRAM. -/
def State.ctxOk (s : State) (c : Capv) : Bool :=
  let a := (Cap.addr c).toNat
  bufOk c [permLoad, permStore] && Cap.inBounds c a 512 && decide (a % 64 = 0) && (s.target a).isMem && (s.target (a + 511)).isMem

/-- R388: every capability that the operation uses, and CTX, passes. -/
def State.capsOk (s : State) (j : JobState) : Bool :=
  ((opNeeds j.op j.len j.auxlen (bit j.flags 3)).getD []).all (fun x => bufOk (j.cap x.1) x.2.1 && Cap.inBounds (j.cap x.1) (j.at x.1) x.2.2) &&
    s.ctxOk (j.cap 4)

/-! ## Status (R389) -/

/-- The job status code of a failed access. -/
def DmaErr.job : DmaErr → Nat
  | .screen => 7
  | .mem => 8

/-- R389: a job ends: status, CPH_DONE, event 36, DONE. -/
def State.cphEnd (s : State) (k code : Nat) : State :=
  let n := match (s.cslot k).job with
    | some j => j.done
    | none => 0
  let s := (s.dmaPut 5 (s.slotAddr k + 0x70) (toBytes 2 code ++ List.replicate 6 0 ++ toBytes 8 n) []).2
  let s := s.modSlot k (fun x => { x with state := .done, code := BitVec.ofNat 4 code, job := none, ctx := [] })
  let s := if s.cph.running = some (Fin.ofNat 16 k) then { s with cph := { s.cph with running := none } } else s
  (s.hwSet (aCph 4) (BitVec.ofNat 32 (2 ^ k))).raise 36

/-- R92: the engine works: it is READY and its clock does not relock. -/
def State.cphOn (s : State) : Bool := s.unitReady 13 && !s.holds92 .cipher

/-! ## Start (R387, R388) -/

/-- R387: the descriptor of a slot as read, with the tags of its capabilities. -/
def State.jobGet (s : State) (k : Nat) : Option JobState × State :=
  let a := s.slotAddr k
  if ¬ (s.target a).isMem ∨ ¬ (s.target (a + 127)).isMem then (none, s)
  else
    let r := s.dmaGet 5 a 0x70
    match r.1 with
    | .ok bs =>
      let tags := (List.range 5).map (fun i => r.2.tagAt (a + 16 * i))
      (some { desc := bs, caps := tags, key := [], aux := [], done := 0, input := [], chain := [], yieldedAt := 0 }, r.2)
    | .error _ => (none, r.2)

/-- Bytes of AUX read at the start. -/
def JobState.auxBytes (j : JobState) : Nat :=
  match j.op with
  | 0x01 => 32 + j.auxlen
  | 0x02 => 32 + j.auxlen
  | 0x03 => 16
  | 0x04 => 16
  | 0x05 => 16
  | 0x20 => 64
  | 0x21 => 96
  | _ => 0

/-- Bytes of KEY read at the start. -/
def JobState.keyBytes (j : JobState) : Nat :=
  match (((opNeeds j.op j.len j.auxlen (bit j.flags 3)).getD []).find? (fun x => x.1 == 2)) with
  | some x => x.2.2
  | none => 0

/-- R388: a queued job starts, or ends by the first check that fails: DESC, LENGTH, CAP, ALIGN (log 22). -/
def State.cphBegin (s : State) (k : Nat) : State :=
  let r := s.jobGet k
  match r.1 with
  | none => r.2.cphEnd k 2
  | some j =>
    let s := r.2
    if ¬ j.wellFormed then s.cphEnd k 2
    else if ¬ lenOk j.op j.len then s.cphEnd k 5
    else if ¬ s.capsOk j then s.cphEnd k 3
    else if j.op = 0x41 ∧ (j.at 0 % 16 ≠ 0 ∨ j.at 1 % 16 ≠ 0 ∨ j.len % 16 ≠ 0) then s.cphEnd k 4
    else
      let key := s.dmaGet 5 (j.at 2) j.keyBytes
      match key.1 with
      | .error e => key.2.cphEnd k e.job
      | .ok kb =>
        let aux := key.2.dmaGet 5 (j.at 3) j.auxBytes
        match aux.1 with
        | .error e => aux.2.cphEnd k e.job
        | .ok ab =>
          let s := aux.2.modSlot k (fun x => { x with state := .running, job := some { j with key := kb, aux := ab, chain := ab.take 16 } })
          { s with cph := { s.cph with running := some (Fin.ofNat 16 k) } }

/-- R390: while the engine is free it takes the best waiting job; a preempted one comes back by CPH_JOB_RESUME. -/
def State.cphTakeN : Nat → State → State
  | 0, s => s
  | n + 1, s =>
    if s.cph.running.isSome then s
    else match s.cphBest with
      | none => s
      | some k => if (s.cslot k).state = .preempted then s else State.cphTakeN n (s.cphBegin k)

/-- R390: the engine takes work. -/
def State.cphTake (s : State) : State := State.cphTakeN 17 s

/-! ## Chunks (R386, R391) -/

/-- SP 800-38A: a counter block moved on by a number of blocks in its low `w` bytes. -/
def ctrPlus (w : Nat) (ctr : List Byte) (n : Nat) : List Byte :=
  ctr.take (16 - w) ++ beBytes w ((beNat (ctr.drop (16 - w)) + n) % 256 ^ w)

/-- R386: the output of a chunk of the operations that give as many bytes as they take, and the next chain block. -/
def chunkOut (j : JobState) (m : List Byte) : List Byte × List Byte :=
  let ks := aesKeys j.key
  match j.op with
  | 0x01 => (aesCtr ks 4 (ctrPlus 4 (j.aux.take 12 ++ [0, 0, 0, 2]) (j.done / 16)) m, [])
  | 0x02 => (aesCtr ks 4 (ctrPlus 4 (j.aux.take 12 ++ [0, 0, 0, 2]) (j.done / 16)) m, [])
  | 0x03 => (aesCtr ks 16 (ctrPlus 16 (j.aux.take 16) (j.done / 16)) m, [])
  | 0x04 =>
    let c := cbcEnc ks j.chain m
    (c, c.drop (c.length - 16))
  | 0x05 => (cbcDec ks j.chain m, m.drop (m.length - 16))
  | _ => (m, [])

/-- R386: the bytes that an operation keeps of a chunk: cipher text (GCM) or message (hashes). -/
def chunkKeep (j : JobState) (m out : List Byte) : List Byte :=
  match j.op with
  | 0x01 => out
  | 0x02 => m
  | 0x10 => m
  | 0x11 => m
  | 0x12 => m
  | _ => []

/-- R126: the tags of the granules of a chunk as they arrive at the destination. -/
def State.copyTags (s : State) (j : JobState) (m : List Byte) : List Bool :=
  (List.range (m.length / 16)).map (fun i =>
    let v : Capv := ⟨BitVec.ofNat 128 (leField m (16 * i) 16), s.tagAt (j.at 0 + j.done + 16 * i)⟩
    v.tag && (!Cap.has (j.cap 1) permGlobal || Cap.has v permGlobal))

/-- R395: a generate request has been made. -/
def State.drbgUsed (s : State) : State := { s with cph := { s.cph with drbgReqs := s.cph.drbgReqs + 1 } }

/-- R395: a generate request waits for the reseed that follows every 2^16 of them. -/
def State.drbgWaits (s : State) : Bool := decide (65536 ≤ s.cph.drbgReqs) && !s.cph.entropyFail

/-- R391: one chunk of n bytes: the code it ends the job with, or the job's progress. -/
def State.cphChunk (s : State) (j : JobState) (n : Nat) : Except Nat JobState × State :=
  if j.op = 0x50 then
    if s.cph.entropyFail then (.error 9, s)
    else
      let (bs, s) := s.drawBytes n
      let s := s.drbgUsed
      let w := s.dmaPut 5 (j.at 1 + j.done) bs []
      match w.1 with
      | some e => (.error e.job, w.2)
      | none => (.ok { j with done := j.done + n }, w.2)
  else
    let r := s.dmaGet 5 (j.at 0 + j.done) n
    match r.1 with
    | .error e => (.error e.job, r.2)
    | .ok m =>
      let tags := if j.op = 0x41 then r.2.copyTags j m else []
      let o := chunkOut j m
      let next := { j with done := j.done + n, input := j.input ++ chunkKeep j m o.1, chain := o.2 }
      if 0x10 ≤ j.op ∧ j.op ≤ 0x12 then (.ok next, r.2)
      else
        let w := r.2.dmaPut 5 (j.at 1 + j.done) o.1 tags
        match w.1 with
        | some e => (.error e.job, w.2)
        | none => (.ok next, w.2)

/-- An output at the end of a job: the job's code. -/
def State.cphPut (s : State) (a : Nat) (bs : List Byte) : Nat × State :=
  let w := s.dmaPut 5 a bs []
  match w.1 with
  | some e => (e.job, w.2)
  | none => (0, w.2)

/-- R386: what an operation does once all its input is processed: its code. -/
def State.cphFinish (s : State) (j : JobState) : Nat × State :=
  let tag := gcmTag (aesKeys j.key) (j.aux.take 12) (j.aux.drop 32) j.input
  match j.op with
  | 0x01 => s.cphPut (j.at 3 + 16) tag
  | 0x02 =>
    if tag = (j.aux.drop 16).take 16 then (0, s)
    else
      let w := s.cphPut (j.at 1) (List.replicate j.len 0)
      (if w.1 = 0 then 1 else w.1, w.2)
  | 0x10 => s.cphPut (j.at 1) (Machine.sha256 j.input)
  | 0x11 => s.cphPut (j.at 1) (Machine.sha384 j.input)
  | 0x12 => s.cphPut (j.at 1) (sha3x256 j.input)
  | 0x50 => (if j.len = 0 ∧ s.cph.entropyFail then 9 else 0, s)
  | _ => (0, s)

/-- R391: chunks until `stop` bytes are processed; a job whose bytes are all processed ends. -/
def State.cphChunks (k stop : Nat) : Nat → State → State
  | 0, s => s
  | n + 1, s =>
    match (s.cslot k).job with
    | none => s
    | some j =>
      if j.done = j.len then
        let f := s.cphFinish j
        f.2.cphEnd k f.1
      else if stop ≤ j.done ∨ (j.op = 0x50 ∧ s.drbgWaits) then s
      else
        let c := s.cphChunk j (min 64 (j.len - j.done))
        match c.1 with
        | .error code => c.2.cphEnd k code
        | .ok j' => State.cphChunks k stop n (c.2.modSlot k (fun x => { x with job := some j' }))

/-- R392: the job stands at a 64 KiB check that it has not made. -/
def JobState.atQuantum (j : JobState) : Bool :=
  decide (65536 < j.len ∧ 0 < j.done ∧ j.done % 65536 = 0 ∧ j.done < j.len ∧ j.done ≠ j.yieldedAt)

/-- R391, R392: the running job may not go on: a job of higher priority waits, or it stands at a 64 KiB boundary and one
of its own priority waits. -/
def State.mustStop (s : State) (k : Nat) (j : JobState) : Bool :=
  let p := (s.cslot k).prio.toNat
  s.cphWaiting (fun q => decide (p < q)) ||
    (j.atQuantum && s.cphWaiting (fun q => q == p))

/-- R386: the running job, of one of these operations, goes on until `upto` bytes are processed or it ends. -/
def State.cphRun (s : State) (ops : List Nat) (upto : Nat) : State :=
  match s.cph.running with
  | none => s
  | some k =>
    match (s.cslot k.val).job with
    | none => s
    | some j =>
      if ¬ s.cphOn ∨ ¬ ops.contains j.op ∨ s.mustStop k.val j then s
      else
        let stop := if j.len ≤ upto then j.len else upto / 64 * 64
        let p := (s.cslot k.val).prio.toNat
        let stop := if 65536 < j.len ∧ s.cphWaiting (fun q => q == p) then min stop ((j.done / 65536 + 1) * 65536) else stop
        (State.cphChunks k.val stop ((stop - j.done) / 64 + 2) s).cphTake

/-- R386: AES_GCM_ENCRYPT. -/
def execAesGcmEncrypt (upto : Nat) (s : State) : Out := .next (s.cphRun [0x01] upto)
/-- R386: AES_GCM_DECRYPT. -/
def execAesGcmDecrypt (upto : Nat) (s : State) : Out := .next (s.cphRun [0x02] upto)
/-- R386: AES_CTR. -/
def execAesCtr (upto : Nat) (s : State) : Out := .next (s.cphRun [0x03] upto)
/-- R386: AES_CBC_ENCRYPT. -/
def execAesCbcEncrypt (upto : Nat) (s : State) : Out := .next (s.cphRun [0x04] upto)
/-- R386: AES_CBC_DECRYPT. -/
def execAesCbcDecrypt (upto : Nat) (s : State) : Out := .next (s.cphRun [0x05] upto)
/-- R386: SHA_256. -/
def execSha256 (upto : Nat) (s : State) : Out := .next (s.cphRun [0x10] upto)
/-- R386: SHA_384. -/
def execSha384 (upto : Nat) (s : State) : Out := .next (s.cphRun [0x11] upto)
/-- R386: SHA3_256. -/
def execSha3256 (upto : Nat) (s : State) : Out := .next (s.cphRun [0x12] upto)
/-- R386: COPY. -/
def execCopy (upto : Nat) (s : State) : Out := .next (s.cphRun [0x40] upto)
/-- R126: CAPABILITY_AWARE_COPY. -/
def execCapabilityAwareCopy (upto : Nat) (s : State) : Out := .next (s.cphRun [0x41] upto)
/-- R395: RANDOM: the output of the CTR_DRBG is free (log 10). -/
def execRandom (upto : Nat) (s : State) : Out := .next (s.cphRun [0x50] upto)

/-! ## Public-key operations (R386) -/

/-- R386: a running public-key job of one of these operations reads its SRC and ends with what `f` makes of it: a code
and an output for DST. -/
def State.cphPublic (s : State) (ops : List Nat) (f : State → JobState → List Byte → Nat × Option (List Byte) × State) : State :=
  match s.cph.running with
  | none => s
  | some k =>
    match (s.cslot k.val).job with
    | none => s
    | some j =>
      if ¬ s.cphOn ∨ ¬ ops.contains j.op ∨ s.mustStop k.val j ∨ (0x22 ≤ j.op ∧ j.op ≤ 0x23 ∧ s.drbgWaits) then s
      else
        let r := s.dmaGet 5 (j.at 0) j.len
        match r.1 with
        | .error e => (r.2.cphEnd k.val e.job).cphTake
        | .ok m =>
          let x := f r.2 j m
          let w := match x.2.1 with
            | none => (x.1, x.2.2)
            | some out => x.2.2.cphPut (j.at 1) out
          let s := if x.1 = 9 then w.2 else w.2.modSlot k.val (fun y => { y with job := some { j with done := j.len } })
          (s.cphEnd k.val w.1).cphTake

/-- The curve of an ECDSA operation. -/
def opCurve (op : Nat) : Curve := if op % 2 = 0 then p256 else p384

/-- R386: ECDSA_VERIFY: X, Y, r and s are little-endian numbers of the curve's length (R4). -/
def execEcdsaVerify (s : State) : Out :=
  .next (s.cphPublic [0x20, 0x21] (fun s j m =>
    let n := j.len
    let ok := (opCurve j.op).verify (leField j.key 0 n, leField j.key n n) m (leField j.aux 0 n) (leField j.aux n n)
    (if ok then 0 else 1, none, s)))

/-- R386, R395: ECDSA_SIGN with a nonce of the random source, which is free (log 10). -/
def execEcdsaSign (s : State) : Out :=
  .next (s.cphPublic [0x22, 0x23] (fun s j m =>
    if s.cph.entropyFail then (9, none, s)
    else
      let c := opCurve j.op
      let (bs, s) := s.drawBytes j.len
      let s := s.drbgUsed
      let sg := c.sign (leField j.key 0 j.len) m (1 + ofBytes bs % (c.n - 1))
      (0, some (toBytes j.len sg.1 ++ toBytes j.len sg.2), s)))

/-- R386: X25519. -/
def execX25519 (s : State) : Out :=
  .next (s.cphPublic [0x30] (fun s j m => (0, some (Machine.x25519 j.key m), s)))

/-! ## Preemption, quanta and context blocks (R391 to R393) -/

/-- R393: CTX read again from the descriptor, if it passes R388. -/
def State.ctxGet (s : State) (k : Nat) : Option Nat × State :=
  let a := s.slotAddr k + 0x40
  if ¬ (s.target a).isMem then (none, s)
  else
    let r := s.dmaGet 5 a 16
    match r.1 with
    | .ok bs =>
      let c : Capv := ⟨BitVec.ofNat 128 (leField bs 0 16), r.2.tagAt a⟩
      (if r.2.ctxOk c then some (Cap.addr c).toNat else none, r.2)
    | .error _ => (none, r.2)

/-- R391, R393: the running job is saved into its context block, whose bytes are free (log 10), or ends with CTX. -/
def State.cphSave (s : State) (k order : Nat) : State :=
  let c := s.ctxGet k
  match c.1 with
  | none => c.2.cphEnd k 6
  | some a =>
    let (bs, s) := c.2.drawBytes 512
    let w := s.dmaPut 5 a bs []
    match w.1 with
    | some e => w.2.cphEnd k e.job
    | none =>
      let s := w.2.modSlot k (fun x => { x with state := .preempted, order := order, ctx := bs })
      { s with cph := { s.cph with running := none } }

/-- R391: CPH_PREEMPT. -/
def execCphPreempt (s : State) : Out :=
  match s.cph.running with
  | none => .next s
  | some k =>
    if s.cphOn ∧ s.cphWaiting (fun q => decide ((s.cslot k.val).prio.toNat < q)) then .next (s.cphSave k.val 0).cphTake
    else .next s

/-- R392: CPH_QUANTUM_YIELD. -/
def execCphQuantumYield (s : State) : Out :=
  match s.cph.running with
  | none => .next s
  | some k =>
    match (s.cslot k.val).job with
    | none => .next s
    | some j =>
      if s.cphOn ∧ j.atQuantum ∧ s.cphWaiting (fun q => q == (s.cslot k.val).prio.toNat) then
        let o := s.cph.nextOrder
        let s := s.modSlot k.val (fun x => { x with job := some { j with yieldedAt := j.done } })
        .next (({ s with cph := { s.cph with nextOrder := o + 1 } }).cphSave k.val o).cphTake
      else .next s

/-- R391, R393: CPH_JOB_RESUME: the best waiting job, if it is preempted, goes on from its context block. -/
def execCphJobResume (s : State) : Out :=
  if s.cph.running.isSome ∨ ¬ s.cphOn then .next s
  else match s.cphBest with
    | none => .next s
    | some k =>
      if (s.cslot k).state ≠ .preempted then .next s
      else
        let c := s.ctxGet k
        match c.1 with
        | none => .next (c.2.cphEnd k 6).cphTake
        | some a =>
          let r := c.2.dmaGet 5 a 512
          match r.1 with
          | .error e => .next (r.2.cphEnd k e.job).cphTake
          | .ok bs =>
            if bs ≠ (r.2.cslot k).ctx then .next (r.2.cphEnd k 6).cphTake
            else
              let s := r.2.modSlot k (fun x => { x with state := .running })
              .next { s with cph := { s.cph with running := some (Fin.ofNat 16 k) } }

/-! ## Slot control (R389, R394) and the random source (R395) -/

/-- R389: GO: the engine reads FLAGS.PRIO and the job waits in submission order. -/
def State.cphGo (s : State) (k : Nat) : State :=
  if (s.cslot k).state ≠ .idle then s
  else
    let r := s.jobGet k
    let prio : BitVec 3 := match r.1 with
      | some j => j.flags.extractLsb' 0 3
      | none => 0
    let o := r.2.cph.nextOrder
    let s := r.2.modSlot k (fun x => { x with state := .queued, prio := prio, order := o, job := none, ctx := [] })
    ({ s with cph := { s.cph with nextOrder := o + 1 } }).cphTake

/-- R394: ABORT; a running job stands at a chunk boundary between commands. -/
def State.cphAbort (s : State) (k : Nat) : State :=
  match (s.cslot k).state with
  | .queued | .preempted | .running => (s.cphEnd k 10).cphTake
  | _ => s

/-- R389: CLEAR. -/
def State.cphClear (s : State) (k : Nat) : State :=
  if (s.cslot k).state = .done then s.modSlot k (fun x => { x with state := .idle }) else s

/-- R389: CPH_SLOT_GO. -/
def execCphSlotGo (k : SlotId) (s : State) : Out := .next (s.unitAct 13 (fun s => s.cphGo k.val))
/-- R394: CPH_SLOT_ABORT. -/
def execCphSlotAbort (k : SlotId) (s : State) : Out := .next (s.unitAct 13 (fun s => s.cphAbort k.val))
/-- R389: CPH_SLOT_CLEAR. -/
def execCphSlotClear (k : SlotId) (s : State) : Out := .next (s.unitAct 13 (fun s => s.cphClear k.val))

/-- R395: DRBG_RESEED. -/
def execDrbgReseed (s : State) : Out :=
  .next (if 65536 ≤ s.cph.drbgReqs ∧ ¬ s.cph.entropyFail then { s with cph := { s.cph with drbgReqs := 0 } } else s)

/-- R481, R395: a health test starts to fail, or passes again. -/
def State.trng (s : State) (fail : Bool) : State :=
  { s with
    sac := { s.sac with trngFail := fail }
    cph := { s.cph with entropyFail := fail } }

/-- R481, R456: TRNG_HEALTH_FAIL: one log record and the Sacristy event 9. -/
def execTrngHealthFail (s : State) : Out := .next (if s.sac.trngFail then s else ((s.trng true).log .trngFail 1).sacEvent 9)
/-- R395: TRNG_HEALTH_PASS. -/
def execTrngHealthPass (s : State) : Out := .next (s.trng false)

/-! ## Registers -/

/-- The word that a cipher register reads. -/
def State.cphView (s : State) (off : Nat) : W32 :=
  if off = 0 then
    let w := ((List.range 16).filter (fun k => (s.cslot k).state.waits)).length
    let r := match s.cph.running with
      | some k => 16 + k.val
      | none => 0
    BitVec.ofNat 32 (s.cph.entropyFail.toNat * 0x80000000 + w * 0x10000 + r)
  else if 0x100 ≤ off ∧ off < 0x200 ∧ off % 16 = 12 then
    let x := s.cslot ((off - 0x100) / 16)
    BitVec.ofNat 32 (x.code.toNat * 256 + x.state.num)
  else s.reg (aCph off)

/-- A write of a cipher register (R389, R394). -/
def State.cphWrite (s : State) (off : Nat) (d : W32) : State :=
  if 0x100 ≤ off ∧ off < 0x200 then
    let k := (off - 0x100) / 16
    if off % 16 < 8 then (if (s.cslot k).state = .idle then s.store (aCph off) d else s)
    else if off % 16 = 8 then
      match bits d 2 0 with
      | 1 => s.cphGo k
      | 2 => s.cphAbort k
      | 4 => s.cphClear k
      | _ => s
    else s
  else s.store (aCph off) d

end Sys2Proof.Machine
end

