-- ==== Sys2Proof/Machine/Clerestory.lean ====
section
/-!
DEFINITION. Sys2Proof/Machine/Clerestory.lean: the Clerestory: camera and thermal input, the front end, tracks, zones,
counts, periods, result records, program banks and its registers (R396 to R419). What the array program returns for
each blob comes with the frame's command.
-/
namespace Sys2Proof.Machine

/-! ## Access and rounding -/

/-- Change the Clerestory. -/
def State.modClr (s : State) (f : Clr → Clr) : State := { s with clr := f s.clr }
/-- A field of a Clerestory register. -/
def State.clrF (s : State) (off hi lo : Nat) : Nat := s.field (aClr off) hi lo
/-- A counter of the Clerestory. -/
def State.clrCount (s : State) (i : Nat) (n : Nat := 1) : State := s.count (aClr (0x400 + 8 * i)) n
/-- A quotient as a whole number: exact, or rounded down or up as the implementation does (log 23). -/
def rnd (a b : Nat) : Nat := if a % b = 0 then a / b else if Config.roundUp a b then a / b + 1 else a / b

/-- R413: the size of the sealed partition in MiB. -/
def State.partMib (s : State) : Nat :=
  let r := s.ruleNow 31
  if r.sealed then (r.limit.toNat + 1 - r.base.toNat) / 256 else 0
/-- R413: PARTSIZE. -/
def State.partSize (s : State) : Bool := decide (s.partMib < 48)

/-- R416: the frame ceiling of a level. -/
def fpsOf (level : BitVec 2) : Nat :=
  match level.toNat with
  | 0 => 30
  | 1 => 15
  | 2 => 10
  | _ => 0

/-! ## The sealed partition (R403, R413) -/

/-- The Clerestory's write into the sealed partition, to which rule 31 gives it the right (R288). -/
def State.partPut (s : State) (off : Nat) (bs : List Byte) : State :=
  if ¬ (s.ruleNow 31).sealed then s
  else
    let r := (transfer (4096 * (s.ruleNow 31).base.toNat + off) bs.length).foldl
      (fun (acc : List Byte × State) p => (acc.1.drop p.2, acc.2.writeTarget .dma p.1 (acc.1.take p.2) [])) (bs, s)
    r.2

/-- R413: an item of the front end stands in the first 16 MiB of the partition, where the implementation puts it (log 23). -/
def State.frontPut (s : State) (item : Nat) (bs : List Byte) : State :=
  s.partPut (Config.frontAt item % (0x1000000 - bs.length)) bs

/-- R403, R413: code and weights of a program stand in their bank's 16 MiB of the partition. -/
def State.bankPut (s : State) (b : Nat) (bs : List Byte) : State := s.partPut (0x1000000 * (b + 1)) (bs.take 0x1000000)

/-! ## Result records (R412) -/

/-- R412: RESERR: the ring is given up. -/
def State.resErr (s : State) : State := ((s.hwSet (aClr 4) 0x4000).clrReg (aClr 0x38) 0x100).clrCount 8

/-- R412: one record of 64 bytes. -/
def State.record (s : State) (bs : List Byte) : State :=
  let bs := bs ++ List.replicate (64 - bs.length) 0
  let n := 2 ^ s.clrF 0x38 3 0
  let head := s.clrF 0x3C 15 0
  let base := (s.pair (aClr 0x30)).toNat
  if ¬ s.flag (aClr 0x38) 8 then s.clrCount 8
  else if s.touchesSealed base (64 * n) ∨ ¬ (s.target base).isMem ∨ ¬ (s.target (base + 64 * n - 1)).isMem then s.resErr
  else if (head + 65536 - s.clrF 0x40 15 0) % 65536 = n then s.clrCount 8
  else
    let w := s.dmaPut 2 (base + 64 * (head % n)) bs []
    match w.1 with
    | some _ => w.2.resErr
    | none => (w.2.setReg (aClr 0x3C) (BitVec.ofNat 32 ((head + 1) % 65536))).raise 37

/-- TYPE 3: a status record. -/
def State.statusRec (s : State) (event arg : Nat) : State :=
  s.record ([3, BitVec.ofNat 8 event, BitVec.ofNat 8 arg, 0, 0, 0, 0, 0] ++ toBytes 8 s.tt.now.toNat)

/-! ## Ground positions and speeds (R408) -/

/-- A finite binary32 in units of 2^−149. -/
def f32Int (w : BitVec 32) : Option Int :=
  let e := bits w 30 23
  let f := bits w 22 0
  if e = 255 then none
  else
    let m : Int := if e = 0 then (f : Int) else ((0x800000 + f) * 2 ^ (e - 1) : Nat)
    some (if bit w 31 then -m else m)

/-- R408: H × (x2 ÷ 2, y, 1), normalised; none where it has no value. -/
def groundOf (h : Vector (BitVec 32) 9) (x2 y : Nat) : Option Ground :=
  match h.toList.map f32Int with
  | [some a, some b, some c, some d, some e, some f, some g, some i, some j] =>
    let row := fun (p q r : Int) => p * x2 + 2 * q * y + 2 * r
    if row g i j = 0 then none else some { x := row a b c, y := row d e f, w := row g i j }
  | _ => none

/-- R408: the position of a blob; free where the spec gives it no value (log 10). -/
def State.ground (s : State) (b : Blob) : Ground × State :=
  match groundOf s.clr.homog (b.x0 + b.x1) b.y1 with
  | some g => (g, s)
  | none =>
    let (a, s) := s.drawWord
    let (c, s) := s.drawWord
    ({ x := a.toInt, y := c.toInt, w := 1 }, s)

/-- A squared distance in square metres, as a fraction. -/
def distSq (a b : Ground) : Nat × Nat :=
  let dx := a.x * b.w - b.x * a.w
  let dy := a.y * b.w - b.y * a.w
  ((dx * dx + dy * dy).natAbs, (a.w * b.w * (a.w * b.w)).natAbs)

/-- The greatest r with r² ≤ n, found bit by bit. -/
def isqrt (n : Nat) : Nat :=
  (List.range (n.log2 / 2 + 1)).reverse.foldl (fun r k => if (r + 2 ^ k) * (r + 2 ^ k) ≤ n then r + 2 ^ k else r) 0

/-- R408: the distance over the time, in 0.1 km/h (36 for each m/s), rounded as the implementation does (log 23). -/
def speedOf (d : Nat × Nat) (ns : Nat) : Nat :=
  let num := d.1 * (36 * 1000000000) ^ 2
  let den := d.2 * ns ^ 2
  let r := isqrt (num / den)
  if r * r * den = num then r else if Config.roundUp num den then r + 1 else r

/-- R408, R409: whether that speed is below an edge, exactly. -/
def speedBelow (d : Nat × Nat) (ns edge : Nat) : Bool := decide (d.1 * (36 * 1000000000) ^ 2 < edge ^ 2 * d.2 * ns ^ 2)

/-- R408: what gives a track's speed in its last frame: a squared distance and nanoseconds; none where the frame times do
not rise, for which the spec gives no speed. -/
def trackStep (p : List Sight) : Option ((Nat × Nat) × Nat) :=
  let n := min 4 p.length
  match p.getLast?, p[p.length - n]? with
  | some b, some a =>
    if n ≤ 1 then some ((0, 1), 1)
    else if b.time.toNat ≤ a.time.toNat then none else some (distSq a.pos b.pos, b.time.toNat - a.time.toNat)
  | _, _ => some ((0, 1), 1)

/-! ## Zones (R406) -/

/-- Twice the signed area of a triangle of points in doubled coordinates. -/
def cross (a b p : Int × Int) : Int := (b.1 - a.1) * (p.2 - a.2) - (b.2 - a.2) * (p.1 - a.1)

/-- A point lies on a segment. -/
def onEdge (a b p : Int × Int) : Bool :=
  decide (cross a b p = 0) && decide (min a.1 b.1 ≤ p.1 ∧ p.1 ≤ max a.1 b.1 ∧ min a.2 b.2 ≤ p.2 ∧ p.2 ≤ max a.2 b.2)

/-- A ray from a point to growing x crosses a segment. -/
def rayCrosses (a b p : Int × Int) : Bool :=
  if decide (a.2 ≤ p.2) = decide (b.2 ≤ p.2) then false
  else if a.2 < b.2 then decide (0 < cross a b p) else decide (cross a b p < 0)

/-- R406: a point in doubled coordinates lies in a zone: on an edge, or inside by the even-odd rule. -/
def Zone.holds (z : Zone) (p : Int × Int) : Bool :=
  let q := z.pts.toList.map (fun x => (2 * (x.1 : Int), 2 * (x.2 : Int)))
  let edges := q.zip (q.drop 1 ++ q.take 1)
  edges.any (fun e => onEdge e.1 e.2 p) || (edges.filter (fun e => rayCrosses e.1 e.2 p)).length % 2 == 1

/-- R400: the ground point of a blob in doubled coordinates: the centre of the bottom edge of its box. -/
def Blob.foot (b : Blob) : Int × Int := (b.x0 + b.x1, 2 * b.y1)

/-- A disabled zone. -/
def Zone.off : Zone := { en := false, pts := Vector.replicate 4 (0, 0) }
/-- Zone z in force. -/
def State.zone (s : State) (z : Nat) : Zone := vget s.clr.zones z Zone.off
/-- The zones in force that are enabled, in order. -/
def State.zonesOn (s : State) : List Nat := (List.range 16).filter (fun z => (s.zone z).en)

/-! ## Tracks' records (R410) -/

/-- A 16-bit field that saturates. -/
def sat16 (n : Nat) : Nat := min 65535 n

/-- R412: a coordinate in decimetres, signed 16 bits, saturating. -/
def decimetres (x w : Int) : List Byte :=
  let m := rnd (10 * x.natAbs) w.natAbs
  let v : Int := if (x < 0) ≠ (w < 0) then -(m : Int) else m
  toBytes 2 (BitVec.ofInt 16 (clampInt (-32768) 32767 v)).toNat

/-- R410: the places of the path: first, last and the fractions 1/7 to 6/7 of the frame count, without repeats. -/
def pathPlaces (n : Nat) : List Nat := (([0] ++ (List.range 6).map (fun k => (k + 1) * n / 7) ++ [n - 1]).eraseDups)

/-- TYPE 2: a track record. -/
def State.trackRec (s : State) (t : Track) (cut : Bool) : State :=
  let pts := (pathPlaces t.path.length).filterMap (fun i => t.path[i]?)
  let first := t.path.head?
  let last := t.path.getLast?
  match first, last with
  | some a, some b =>
    let ns := b.time.toNat - a.time.toNat
    let mean := if t.path.length ≤ 1 ∨ ns = 0 then 0 else speedOf (distSq a.pos b.pos) ns
    s.record ([2, BitVec.ofNat 8 t.cls, BitVec.ofNat 8 ((bit t.flags 0).toNat + 2 * cut.toNat + 4 * (bit t.flags 1).toNat + 8 * (!s.ttValid).toNat),
        BitVec.ofNat 8 pts.length] ++ toBytes 4 t.id.toNat ++ toBytes 8 a.time.toNat ++ toBytes 4 (rnd ns 1000000) ++
      toBytes 2 t.zones.toNat ++ toBytes 2 (sat16 mean) ++
      (pts.flatMap (fun p => decimetres p.pos.x p.pos.w ++ decimetres p.pos.y p.pos.w)) ++ List.replicate (32 - 4 * pts.length) 0 ++
      toBytes 2 (sat16 t.vmax) ++ [t.conf])
  | _, _ => s

/-- R410: every open track ends with CUT. -/
def State.cutTracks (s : State) : State :=
  (s.clr.tracks.foldl (fun s t => s.trackRec t true) s).modClr (fun c => { c with tracks := [] })

/-- R411: the open period was cut short. -/
def State.partial_ (s : State) : State := s.modClr (fun c => { c with periodFlags := c.periodFlags ||| 1 })

/-! ## The front end (R400) -/

/-- Rows of pixels, by row and column. -/
abbrev Image := List (List Nat)

/-- R400 step 2: a grey image reduced by averaging k × k blocks. -/
def shrink (k : Nat) (g : Image) : Image :=
  if k ≤ 1 then g
  else
    let w := (g.headD []).length / k
    (List.range (g.length / k)).map (fun r => (List.range w).map (fun c =>
      let rows := (g.drop (k * r)).take k
      rnd ((rows.flatMap (fun row => (row.drop (k * c)).take k)).foldl (fun a b => a + b) 0) (k * k)))

/-- R400 step 1: a thermal frame scaled linearly to 8 bits between its lowest and highest pixel; a flat frame has no
scale and takes the value given. -/
def thermalGrey (flat : Nat) (p : List (List (BitVec 16))) : Image :=
  let all := p.flatten.map BitVec.toNat
  let lo := all.foldl min 65535
  let hi := all.foldl max 0
  p.map (fun row => row.map (fun x => if hi ≤ lo then flat else rnd ((x.toNat - lo) * 255) (hi - lo)))

/-- A bfloat16 in units of 2^−141. -/
def bfInt (w : BitVec 16) : Int :=
  let e := bits w 14 7
  let f := bits w 6 0
  let m := if e = 0 then f * 2 ^ 8 else (128 + f) * 2 ^ (e + 7)
  if bit w 15 then -(m : Int) else m

/-- The nearest bfloat16, ties to even, of a number in units of 2^−149. -/
def bfRound (v : Int) : BitVec 16 :=
  let a := v.natAbs
  let q := max (a.log2 - 7) 16
  let lo := a / 2 ^ q
  let r := a % 2 ^ q
  let up := decide (2 ^ q < 2 * r) || (decide (2 * r = 2 ^ q) && lo % 2 == 1)
  let m := if up then lo + 1 else lo
  let (m, q) := if m = 256 then (128, q + 1) else (m, q)
  let body := if m < 128 then m else if 270 ≤ q then 0x7F80 else (q - 15) * 128 + (m - 128)
  BitVec.ofNat 16 ((if v < 0 then 0x8000 else 0) + body)

/-- R400 step 3: the background of a pixel after a frame: B + (G − B) × 2^−ALPHA. -/
def backgroundStep (alpha : Nat) (b : BitVec 16) (g : Nat) : BitVec 16 :=
  let bi := bfInt b * 2 ^ 8
  let gi : Int := (g * 2 ^ 149 : Nat)
  bfRound (bi + (gi - bi) / 2 ^ alpha)

/-- R400 step 4: a pixel of the motion mask. -/
def maskBit (thresh : Nat) (b : BitVec 16) (g : Nat) : Bool :=
  decide ((thresh * 2 ^ 141 : Int) < ((g * 2 ^ 141 : Int) - bfInt b).natAbs)

/-- A component under construction: its blob and its set pixels (column, row). -/
structure Comp where
  /-- Box and count. -/
  blob : Blob
  /-- Pixels. -/
  pix : List (Nat × Nat)
deriving DecidableEq, Repr

/-- R400 step 5: a set pixel joins the components that it touches (8-connected); they become one, in the place of the
first of them. -/
def addPixel (cs : List Comp) (p : Nat × Nat) : List Comp :=
  let near := fun (c : Comp) => c.pix.any (fun q => decide (q.1 ≤ p.1 + 1 ∧ p.1 ≤ q.1 + 1 ∧ q.2 ≤ p.2 + 1 ∧ p.2 ≤ q.2 + 1))
  let own : Comp := { blob := { x0 := p.1, y0 := p.2, x1 := p.1, y1 := p.2, count := 1 }, pix := [p] }
  let merge := fun (a b : Comp) =>
    let x : Blob := { x0 := min a.blob.x0 b.blob.x0, y0 := min a.blob.y0 b.blob.y0, x1 := max a.blob.x1 b.blob.x1,
                      y1 := max a.blob.y1 b.blob.y1, count := a.blob.count + b.blob.count }
    ({ blob := x, pix := b.pix ++ a.pix } : Comp)
  match cs.filter near with
  | [] => cs ++ [own]
  | c :: more =>
    let whole := merge (more.foldl merge c) own
    let keep := cs.filter (fun d => !near d || d == c)
    keep.map (fun d => if d = c then whole else d)

/-- R400 step 5: the components of a mask given by its set pixels in raster order, in raster order of their first pixel. -/
def components (ps : List (Nat × Nat)) : List Blob := (ps.foldl addPixel []).map (fun c => c.blob)

/-- R400, R413: the front end on a working image: the background moves, the blobs come out, the rest are counted; the image, the
background and the mask stand in the partition. -/
def State.frontEnd (s : State) (g : Image) : List Blob × State :=
  let flat := g.flatten
  let alpha := s.clrF 0x20 11 8
  let thresh := s.clrF 0x20 7 0
  let (b0, s) := if s.clr.background.length = flat.length then (s.clr.background, s)
    else
      let d := s.drawBytes (2 * flat.length)
      ((List.range flat.length).map (fun i => BitVec.ofNat 16 (leField d.1 (2 * i) 2)), d.2)
  let b := List.zipWith (backgroundStep alpha) b0 flat
  let mask := List.zipWith (maskBit thresh) b flat
  let w := (g.headD []).length
  let ps := (mask.zipIdx.filter (fun p => p.1)).map (fun p => (p.2 % w, p.2 / w))
  let cs := (components ps).filter (fun c => decide (s.clrF 0x20 31 16 ≤ c.count))
  let s := s.modClr (fun c => { c with background := b })
  let s := s.frontPut 1 (flat.map (BitVec.ofNat 8))
  let s := s.frontPut 2 (b.flatMap (fun x => toBytes 2 x.toNat))
  let s := s.frontPut 3 (mask.map (fun m => BitVec.ofNat 8 m.toNat))
  (cs.take 255, s.clrCount 6 (cs.length - 255))

/-! ## Tracks (R407 to R410) -/

/-- The area in which two boxes meet. -/
def overlap (a b : Blob) : Nat := (min a.x1 b.x1 + 1 - max a.x0 b.x0) * (min a.y1 b.y1 + 1 - max a.y0 b.y0)

/-- R407: the track whose last box a blob overlaps most; equal overlaps are decided freely (log 10). -/
def State.mostOverlap (s : State) (ts : List Track) (b : Blob) : Option (BitVec 32) × State :=
  let r := ts.foldl (fun (acc : Option (BitVec 32 × Nat) × State) t =>
    let o := overlap t.box b
    if o = 0 then acc
    else match acc.1 with
      | none => (some (t.id, o), acc.2)
      | some (_, m) =>
        if m < o then (some (t.id, o), acc.2)
        else if m = o then
          let (x, s) := acc.2.drawBool
          (if x then some (t.id, o) else acc.1, s)
        else acc) (none, s)
  (r.1.map (fun x => x.1), r.2)

/-- A blob of a frame with what the program returned for it. -/
structure Found where
  /-- The blob. -/
  blob : Blob
  /-- What the program said. -/
  res : BlobResult
deriving DecidableEq, Repr

/-- R408: a track takes a blob. -/
def State.joinTrack (s : State) (t : Track) (f : Found) (now : W64) (fl : BitVec 2) : Track × State :=
  let (g, s) := s.ground f.blob
  let path := t.path ++ [{ time := now, pos := g }]
  let (v, s) := match trackStep path with
    | some x => (speedOf x.1 x.2, s)
    | none =>
      let (w, s) := s.drawWord
      (bits w 15 0, s)
  ({ t with
     cls := min 5 f.res.cls
     conf := f.res.conf
     box := f.blob
     path := path
     vmax := max t.vmax v
     missing := 0
     flags := t.flags ||| fl }, s)

/-- R407: the ID after one. -/
def nextId (i : BitVec 32) : BitVec 32 := if i = 0xFFFFFFFF then 1 else i + 1

/-- R407: each blob joins a track; `old` are the tracks as they stood before the frame, `taken` those that have a blob. -/
def State.associate (s : State) (old : List Track) (now : W64) (fl : BitVec 2) :
    List Found → List (BitVec 32) → List (BitVec 32) × State
  | [], taken => (taken, s)
  | f :: rest, taken =>
    let named : Option (BitVec 32) := match f.res.track with
      | some i => if old.any (fun t => t.id == i) then some i else none
      | none => none
    let (goal, s) := match named with
      | some i => (some i, s)
      | none => s.mostOverlap old f.blob
    let free : Option Track := match goal with
      | some i => if taken.contains i then none else s.clr.tracks.find? (fun t => t.id == i)
      | none => none
    match free with
    | some t =>
      let (t', s) := s.joinTrack t f now fl
      (s.modClr (fun c => { c with tracks := c.tracks.map (fun x => if x.id = t.id then t' else x) })).associate old now fl rest (t.id :: taken)
    | none =>
      if 64 ≤ s.clr.tracks.length then (s.clrCount 7).associate old now fl rest taken
      else
        let i := s.clr.nextTrack
        let t : Track := { id := i, cls := 5, conf := 0, box := f.blob, path := [], zones := 0, vmax := 0, missing := 0, flags := 0 }
        let (t', s) := s.joinTrack t f now fl
        (s.modClr (fun c => { c with tracks := c.tracks ++ [t'], nextTrack := nextId i })).associate old now fl rest (i :: taken)

/-- R409: the speed bin of a track. -/
def State.binOf (s : State) (t : Track) : Nat × State :=
  match trackStep t.path with
  | some x => (((List.range 7).find? (fun k => speedBelow x.1 x.2 (vget s.clr.edges k 0).toNat)).getD 7, s)
  | none =>
    let (w, s) := s.drawWord
    (bits w 2 0, s)

/-- R409: the zones that a track's ground point lies in. -/
def State.zonesAt (s : State) (b : Blob) : List Nat := s.zonesOn.filter (fun z => (s.zone z).holds b.foot)

/-- Counts of a zone, changed. -/
def State.modCount (s : State) (z : Nat) (f : ZoneCount → ZoneCount) : State := s.modClr (fun c => { c with counts := vmod c.counts z f })

/-- R409: a track with a blob in this frame is counted in each zone that it enters. -/
def State.countTrack (s : State) (t : Track) : State :=
  let enter := (s.zonesAt t.box).filter (fun z => !bit t.zones z)
  let (b, s) := s.binOf t
  let s := enter.foldl (fun s z =>
    s.modCount z (fun c => { c with cls := vmod c.cls t.cls (fun n => n + 1), bins := vmod c.bins b (fun n => n + 1) })) s
  let seen := enter.foldl (fun (w : BitVec 16) z => putBit w z true) t.zones
  s.modClr (fun c => { c with tracks := c.tracks.map (fun x => if x.id = t.id then { x with zones := seen } else x) })

/-- R407 to R410: the tracks after a processed frame. -/
def State.trackFrame (s : State) (fs : List Found) (now : W64) (fl : BitVec 2) : State :=
  let r := s.associate s.clr.tracks now fl fs []
  let live := r.2.clr.tracks.filter (fun t => r.1.contains t.id)
  let s := live.foldl (fun s t => s.countTrack t) r.2
  let occ := s.zonesOn.filter (fun z => live.any (fun t => (s.zone z).holds t.box.foot))
  let s := occ.foldl (fun s z => s.modCount z (fun c => { c with occ := c.occ + 1 })) s
  let loss := max 1 (s.clrF 0x28 7 0)
  let aged := s.clr.tracks.map (fun t => if r.1.contains t.id then t else { t with missing := t.missing + 1 })
  let gone := aged.filter (fun t => decide (loss ≤ t.missing))
  let s := gone.foldl (fun s t => s.trackRec t false) s
  s.modClr (fun c => { c with tracks := aged.filter (fun t => decide (t.missing < loss)) })

/-! ## Frames (R397 to R402, R416 to R418) -/

/-- R416, R405, R406, R408: what takes effect at a frame boundary: the level, then the swap, then zones and homography. -/
def State.frameBoundary (s : State) : State :=
  let s := match s.clr.levelDue with
    | some l =>
      if l = s.clr.level then s.modClr (fun c => { c with levelDue := none })
      else (s.modClr (fun c => { c with level := l, levelDue := none })).statusRec 1 l.toNat
    | none => s
  let other := 1 - s.clr.active.val
  let s := if ¬ s.clr.swapDue then s
    else if (vget s.clr.banks other Bank.empty).state ≠ .accepted then s.modClr (fun c => { c with swapDue := false })
    else
      let swap := fun (c : Clr) =>
        let banks := vmod c.banks c.active.val (fun b => if b.state = .active then { b with state := .accepted } else b)
        { c with swapDue := false, active := Fin.ofNat 2 other, banks := vmod banks other (fun b => { b with state := .active }) }
      (s.modClr swap).statusRec 4 other
  let s := s.clr.zonesDue.foldl (fun s z => s.modClr (fun c => { c with zones := vset c.zones z.1 z.2 })) s
  s.modClr (fun c => { c with zonesDue := [], homog := c.homogDue.getD c.homog, homogDue := none })

/-- R417: a frame at a time is due for processing. -/
def State.frameDue (s : State) (now : W64) : Bool :=
  match s.clr.lastFrame with
  | none => true
  | some l => decide ((1000000000 : Int) ≤ ((now.toNat : Int) - l.toNat + 1000000) * fpsOf s.clr.level)

/-- The active bank. -/
def State.bankNow (s : State) : Bank := vget s.clr.banks s.clr.active.val Bank.empty

/-- R402, R418: the program meets poison or faults: the frame is dropped and RUN cleared. -/
def State.progError (s : State) : State :=
  let s := ((s.clrCount 3).modClr (fun c => { c with run := false })).hwSet (aClr 4) 0x8000
  (s.statusRec 5 0).cutTracks.partial_

/-- R400 to R410, R418: a working image is processed. -/
def State.processFrame (s : State) (g : Image) (res : List BlobResult) (err : Bool) (now : W64) : State :=
  let (blobs, s) := s.frontEnd g
  let int8 := s.clr.level == 2
  let noArray := int8 && !s.bankNow.int8
  if ¬ noArray ∧ err then s.progError
  else
    let none_ : BlobResult := { cls := 5, conf := 0, track := none }
    let fs := blobs.zipIdx.map (fun (p : Blob × Nat) => ({ blob := p.1, res := if noArray then none_ else res.getD p.2 none_ } : Found))
    let fl : BitVec 2 := if noArray then 2 else if int8 then 1 else 0
    let s := s.modClr (fun c =>
      { c with
        noint8 := noArray
        lastFrame := some now
        periodFrames := c.periodFrames + 1
        periodFlags := c.periodFlags ||| (if noArray then 4 else if int8 then 2 else 0) })
    (s.clrCount 1).trackFrame fs now fl

/-- R417: an accepted frame is processed, or skipped. -/
def State.acceptFrame (s : State) (g : Image) (res : List BlobResult) (err : Bool) : State :=
  let now := s.tt.now
  if s.frameDue now then s.processFrame g res err now else s.clrCount 2

/-- R396: the data types that the camera input takes. -/
def clrTypes : List Nat := [0x2A, 0x2B, 0x2C, 0x1E]

/-- R397: a frame of the selected channel and type is accepted. -/
def State.frameOk (s : State) (f : CsiFrame) : Bool :=
  f.bracketed && !f.bad && decide (f.grey.length = s.clrF 0x14 11 0) &&
    f.grey.all (fun row => decide (row.length = s.clrF 0x14 27 16))

/-- R396: the packets of a frame that the input discards and counts in CSI_PKT_DROP: uncorrectable headers, other channels and
unsupported types. -/
def State.csiDropped (s : State) (f : CsiFrame) : Nat :=
  f.dropped + if f.vc.toNat ≠ s.clrF 0x10 17 16 ∨ ¬ clrTypes.contains f.dt.toNat then f.grey.length else 0

/-- CLR_CAM_CFG.SRC: the camera is the front end's source. -/
def State.srcCamera (s : State) : Bool := !s.flag (aClr 0x10) 20

/-- R396 to R398: a frame on the camera input: it is counted, accepted or discarded whole whatever RUN is, and processed with RUN
1 and the camera as the source. -/
def State.cameraFrame (s : State) (f : CsiFrame) (res : List BlobResult) (err : Bool) : State :=
  let s := (s.clrCount 4 f.eccCorr).clrCount 5 (s.csiDropped f)
  if f.vc.toNat ≠ s.clrF 0x10 17 16 then s
  else
    let s := if s.srcCamera then s.frameBoundary else s
    if f.dt.toNat ≠ s.clrF 0x10 5 0 ∨ ¬ s.frameOk f then s.clrCount 3
    else
      let s := s.clrCount 0
      let lost := s.clr.camLost
      let s := s.modClr (fun c => { c with camlock := true, camLost := false })
      let s := if lost then s.statusRec 3 0 else s
      if ¬ (s.clr.run && s.srcCamera) then s
      else
        let s := s.frontPut 0 f.grey.flatten
        s.acceptFrame (shrink (s.clrF 0x10 26 24) (f.grey.map (fun row => row.map BitVec.toNat))) res err

/-- R397: CAMERA_FRAME_RX. -/
def execCameraFrameRx (f : CsiFrame) (res : List BlobResult) (err : Bool) (s : State) : Out :=
  .next (if s.unitReady 12 then s.cameraFrame f res err else s)

/-- R398: CAMERA_LOST, with the camera as the source (log 23). -/
def execCameraLost (s : State) : Out :=
  .next (if s.unitReady 12 ∧ s.clr.run ∧ s.srcCamera ∧ ¬ s.clr.camLost then
    ((s.modClr (fun c => { c with camlock := false, camLost := true })).statusRec 2 0).cutTracks.partial_ else s)

/-- R42: the pixels that THM_MISO brings; free while bank C is unpowered. -/
def State.thmSeen (s : State) (pix : List (List (BitVec 16))) : List (List (BitVec 16)) × State :=
  if s.bankUp 2 then (pix, s)
  else
    let (d, s) := s.drawBytes (2 * pix.flatten.length)
    (pix.mapIdx (fun r row => row.mapIdx (fun c _ => BitVec.ofNat 16 (leField d (2 * (r * row.length + c)) 2))), s)

/-- R399: a thermal frame. -/
def State.thermalFrame (s : State) (complete : Bool) (pix : List (List (BitVec 16))) (res : List BlobResult) (err : Bool) : State :=
  let ok := complete && decide (pix.length = s.clrF 0x1C 7 0) && pix.all (fun r => decide (r.length = s.clrF 0x1C 23 16))
  let (pix, s) := s.thmSeen pix
  let s := s.modClr (fun c => { c with thmok := ok })
  let s := if s.srcCamera then s else s.frameBoundary
  if ¬ ok then s.clrCount 3
  else
    let s := s.clrCount 9
    if s.clr.run && !s.srcCamera then
      let (d, s) := s.drawBytes 1
      let s := s.frontPut 0 (pix.flatten.flatMap (fun x => toBytes 2 x.toNat))
      s.acceptFrame (thermalGrey (d.getD 0 0).toNat pix) res err
    else s

/-- R399: THERMAL_FRAME_READ. -/
def execThermalFrameRead (complete : Bool) (pix : List (List (BitVec 16))) (res : List BlobResult) (err : Bool) (s : State) : Out :=
  .next (if s.unitReady 12 ∧ s.flag (aClr 0x18) 0 then s.thermalFrame complete pix res err else s)

/-! ## RUN (R401, R410, R413) -/

/-- R401: the sizes and codes lie in their ranges and the working image is at most 960 × 540. -/
def State.clrConfigOk (s : State) : Bool :=
  let alpha := decide (1 ≤ s.clrF 0x20 11 8 ∧ s.clrF 0x20 11 8 ≤ 8)
  let thm := decide (1 ≤ s.clrF 0x1C 23 16 ∧ s.clrF 0x1C 23 16 ≤ 160 ∧ 1 ≤ s.clrF 0x1C 7 0 ∧ s.clrF 0x1C 7 0 ≤ 120 ∧
    10 ≤ s.clrF 0x18 31 24 ∧ 4 ≤ s.clrF 0x18 15 8 ∧ s.clrF 0x18 15 8 ≤ 100)
  let k := s.clrF 0x10 26 24
  let w := s.clrF 0x14 27 16
  let h := s.clrF 0x14 11 0
  let cam := decide (1 ≤ k ∧ k ≤ 4 ∧ 64 ≤ w ∧ w ≤ 1920 ∧ w % 8 = 0 ∧ 64 ≤ h ∧ h ≤ 1080 ∧ w / k ≤ 960 ∧ h / k ≤ 540) &&
    clrTypes.contains (s.clrF 0x10 5 0)
  alpha && (if s.flag (aClr 0x10) 20 ∨ s.flag (aClr 0x18) 0 then thm else true) && (if s.flag (aClr 0x10) 20 then true else cam)

/-- R411: the multiple of CLR_PERIOD seconds at or before town time. -/
def State.periodFloor (s : State) : W64 :=
  let p := s.clrF 0x24 11 0 * 1000000000
  BitVec.ofNat 64 (s.tt.now.toNat / p * p)

/-- No counts. -/
def ZoneCount.zero : ZoneCount := { cls := Vector.replicate 6 0, bins := Vector.replicate 8 0, occ := 0 }

/-- R411: a period opens. -/
def State.openPeriod (s : State) (at_ : W64) (flags : BitVec 3) : State :=
  s.modClr (fun c =>
    { c with
      periodStart := some at_
      periodFrames := 0
      periodFlags := flags
      counts := Vector.replicate 16 ZoneCount.zero })

/-- A bank's state. -/
def State.bankState (s : State) (b : Nat) : BankState := (vget s.clr.banks b Bank.empty).state

/-- The bank that RUN makes active: the active one, or the accepted one; which of two accepted ones is free (log 10). -/
def State.runBank (s : State) : Option Nat × State :=
  if s.bankState s.clr.active.val = .active then (some s.clr.active.val, s)
  else match s.bankState 0, s.bankState 1 with
    | .accepted, .accepted =>
      let (b, s) := s.drawBool
      (some b.toNat, s)
    | .accepted, _ => (some 0, s)
    | _, .accepted => (some 1, s)
    | _, _ => (none, s)

/-- R401, R413: RUN is written 1. -/
def State.runStart (s : State) : State :=
  if s.clr.run then s
  else if ¬ s.clrConfigOk then s.hwSet (aClr 4) 0x2000
  else if s.partSize then s
  else
    let r := s.runBank
    match r.1 with
    | none => r.2
    | some b =>
      let go := fun (c : Clr) =>
        { c with run := true, active := Fin.ofNat 2 b, banks := vmod c.banks b (fun x => { x with state := .active }) }
      let s := r.2.modClr go
      match s.clr.periodStart with
      | some st => if s.tt.now = st then s else s.partial_
      | none => s.openPeriod s.periodFloor (if s.periodFloor = s.tt.now then 0 else 1)

/-- R410: RUN is written 0. -/
def State.runStop (s : State) : State := if s.clr.run then (s.modClr (fun c => { c with run := false })).cutTracks.partial_ else s

/-- R401: CLR_RUN_START. -/
def execClrRunStart (s : State) : Out := .next (s.unitAct 12 State.runStart)
/-- R410: CLR_RUN_STOP. -/
def execClrRunStop (s : State) : Out := .next (s.unitAct 12 State.runStop)

/-! ## Programs (R403 to R405) -/

/-- Bank b. -/
def State.bank (s : State) (b : Nat) : Bank := vget s.clr.banks b Bank.empty

/-- R403, R413: LOAD: the loader takes the address and the length. -/
def State.clrLoad (s : State) (b : Nat) : State :=
  if s.partSize ∨ s.bankState b = .active ∨ s.bankState b = .loading then s
  else
    let x : Bank :=
      { Bank.empty with
        state := .loading
        addr := s.pair (aClr (0x80 + 16 * b))
        len := s.clrF (0x88 + 16 * b) 24 0 }
    s.modClr (fun c => { c with banks := vset c.banks b x })

/-- R403: CLR_LOAD. -/
def execClrLoad (b : Fin 2) (s : State) : Out := .next (s.unitAct 12 (fun s => s.clrLoad b.val))

/-- R403: a load ends with a REASON, or accepted. -/
def State.loadEnd (s : State) (b : Nat) (reason : Nat) (int8 : Bool) : State :=
  let x := s.bank b
  let y : Bank := if reason = 0 then { x with state := .accepted, reason := 0, int8 := int8 }
    else { x with state := .rejected, reason := BitVec.ofNat 4 reason, int8 := false }
  s.modClr (fun c => { c with banks := vset c.banks b y })

/-- R403, R404, R503: the end of a load: the loader has read the image and copied its code and weights into the bank's region, and
the Sacristy has checked it; an image of which LEN does not hold the whole payload has no matching digest (log 13). -/
def State.loadDone (s : State) (b : Nat) (sig : Bool) : State :=
  let x := s.bank b
  if x.state ≠ .loading then s
  else if 0x1000000 < x.len then s.loadEnd b 5 false
  else
    let r := s.dmaGet 2 x.addr.toNat x.len
    match r.1 with
    | .error _ => r.2.loadEnd b 1 false
    | .ok img =>
      let h := img.take 512
      let whole := decide (512 + leField h 0x14 4 ≤ x.len)
      let code := (img.drop 512).take (leField h 0x14 4)
      let s := r.2.bankPut b code
      s.loadEnd b (s.headerReason 3 h (sig && whole && digestOk h code)) (leField h 0x24 4 != 0)

/-- R403: CLR_LOAD_DONE; `sig`: the signature of the image verifies. -/
def execClrLoadDone (b : Fin 2) (sig : Bool) (s : State) : Out := .next (if s.unitReady 12 then s.loadDone b.val sig else s)

/-- R405: SWAP. -/
def State.clrSwap (s : State) : State :=
  if s.bankState (1 - s.clr.active.val) = .accepted then s.modClr (fun c => { c with swapDue := true }) else s

/-- R405: CLR_SWAP. -/
def execClrSwap (s : State) : Out := .next (s.unitAct 12 State.clrSwap)

/-! ## Committed sets (R406, R408, R409) -/

/-- R406: a write of a zone's CTRL. -/
def State.zoneCommit (s : State) (z : Nat) (d : W32) : State :=
  let s := s.store (aClr (0x210 + 0x20 * z)) d
  let pt := fun (p : Fin 4) => (s.clrF (0x200 + 0x20 * z + 4 * p.val) 26 16, s.clrF (0x200 + 0x20 * z + 4 * p.val) 10 0)
  s.modClr (fun c => { c with zonesDue := c.zonesDue ++ [(z, { en := bit d 0, pts := Vector.ofFn pt })] })

/-- R406: CLR_ZONE_COMMIT. -/
def execClrZoneCommit (z : Fin 16) (data : BitVec 32) (s : State) : Out := .next (s.unitAct 12 (fun s => s.zoneCommit z.val data))

/-- R408: the write of CLR_HOMOG_8. -/
def State.homogCommit (s : State) (d : W32) : State :=
  let s := s.store (aClr 0x120) d
  s.modClr (fun c => { c with homogDue := some (Vector.ofFn (fun (k : Fin 9) => s.reg (aClr (0x100 + 4 * k.val)))) })

/-- R408: CLR_HOMOG_COMMIT. -/
def execClrHomogCommit (data : BitVec 32) (s : State) : Out := .next (s.unitAct 12 (fun s => s.homogCommit data))

/-- R409: the write of edge 6. -/
def State.edgeCommit (s : State) (d : W32) : State :=
  let s := s.store (aClr 0x158) d
  let e := fun (k : Nat) => s.clrF (0x140 + 4 * k) 15 0
  if (List.range 6).all (fun k => decide (e k < e (k + 1))) then
    s.modClr (fun c => { c with edges := Vector.ofFn (fun (k : Fin 7) => BitVec.ofNat 16 (e k.val)) })
  else s.hwSet (aClr 4) 0x2000

/-- R409: CLR_SPEED_EDGE_COMMIT. -/
def execClrSpeedEdgeCommit (data : BitVec 32) (s : State) : Out := .next (s.unitAct 12 (fun s => s.edgeCommit data))

/-! ## Periods (R411) -/

/-- TYPE 1: the period record of a zone. -/
def State.periodRec (s : State) (z : Nat) (start endT : W64) : State :=
  let c := vget s.clr.counts z ZoneCount.zero
  let f := s.clr.periodFlags
  let fl := (bit f 1).toNat + 2 * (bit f 2).toNat + 4 * (bit f 0).toNat + 8 * (!s.ttValid).toNat
  let n := s.clr.periodFrames
  let occ := if n = 0 then 0 else c.occ * 1000 / n
  s.record ([1, BitVec.ofNat 8 z, BitVec.ofNat 8 fl, 0] ++ toBytes 4 n ++ toBytes 8 start.toNat ++
    toBytes 4 ((endT - start).toNat / 1000000) ++ c.cls.toList.flatMap (fun n => toBytes 2 (sat16 n)) ++
    c.bins.toList.flatMap (fun n => toBytes 2 (sat16 n)) ++ toBytes 2 occ)

/-- R411: PERIOD_END: the period that is open has come to its end and the next one opens, PARTIAL if the camera is lost in it
already. -/
def State.periodEnd (s : State) : State :=
  match s.clr.periodStart with
  | none => s
  | some start =>
    let e := s.periodFloor
    if e.toNat ≤ start.toNat then s
    else
      let s := s.zonesOn.foldl (fun s z => s.periodRec z start e) s
      s.openPeriod e (if s.clr.run ∧ s.clr.camLost ∧ s.srcCamera then 1 else 0)

/-- R411: PERIOD_END. -/
def execPeriodEnd (s : State) : Out := .next (if s.unitReady 12 then s.periodEnd else s)

/-! ## Start (R33, R415) -/

/-- R415: the digest stands in CLR_SELFTEST_k: the known one where the self-test passes, any other where it does not (log 10). -/
def State.selfTestDigest (s : State) (ok : Bool) : State :=
  (List.range 12).foldl (fun s k =>
    let (w, s) := if ok then (Config.selfTestKnown k, s) else (let d := s.drawWord; (d.1.truncate 32, d.2))
    s.setReg (aClr (0x600 + 4 * k)) w) s

/-- R411, R415, R416: the Clerestory's start: the Sacristy writes the test pattern into the front end's region, the self-test leaves
its digest, and where it is the known one the unit is ready, at the level in force, in the period that town time is in. -/
def State.clrStart (s : State) (ok : Bool) : State :=
  let s := (s.frontPut 4 ((List.range 4096).map Config.selfTestPattern)).selfTestDigest ok
  if ¬ ok then s
  else
    let s := s.unitUp 12
    let s := if s.power.starting = some 12 then { s with power := { s.power with starting := none } } else s
    s.modClr (fun c => { c with level := s.sac.derate.level, periodStart := some s.periodFloor })

/-- R33, R78, R86, R94, R147, R395, R415: UNIT_READY_RISE: a unit that has been admitted sets its READY bit and leaves its start
phase; the cipher engine has seeded its random source and drawn its context key; a tenant lane does so only while SREFCLK is within
limits, a core starts with its stalls as reset leaves them, and the Clerestory only if its self-test finds the known digest. The
memory channels and the ring lanes rise by their own commands. -/
def execUnitReadyRise (r : UnitRise) (s : State) : Out :=
  let u := r.unit
  let base := u = 16 ∨ u = 18 ∨ u = 20 ∨ u = 22
  if (u.val ≥ 4 ∧ u.val < 8) ∨ u = 14 ∨ u = 15 ∨ u = 0 then .next s
  else if base then
    if s.naveUp ∧ (u = 20 → s.fw) ∧ ¬ s.flag aPark u.val then .next (s.unitUp u.val) else .next s
  else if ¬ bit s.power.started u.val ∨ (u = 12 ∧ ¬ s.sealedOk) ∨ (u = 13 ∧ s.sac.trngFail) ∨
      (8 ≤ u.val ∧ u.val < 12 ∧ ¬ s.power.srefGood) then .next s
  else if u = 12 then .next (if s.unitReady 12 then s else s.clrStart r.selfTest)
  else
    let s := if u.val < 4 ∧ ¬ s.unitReady u.val then s.coreStart u.val else s
    let s := s.unitUp u.val
    let s := if s.power.starting = some u then { s with power := { s.power with starting := none } } else s
    let s := if u = 13 then { s with cph := { s.cph with ctxKey := true, drbgReqs := 1 } } else s
    .next s

/-! ## Registers -/

/-- CLR_PROG_STATUS_b.STATE. -/
def BankState.num : BankState → Nat
  | .empty => 0
  | .loading => 1
  | .accepted => 2
  | .rejected => 3
  | .active => 4

/-- The word that a Clerestory register reads, by class. -/
def State.clrView (s : State) (cls off : Nat) : W32 :=
  if off = 0 then BitVec.ofNat 32 s.clr.run.toNat
  else if off = 4 then
    let c := s.clr
    (s.reg (aClr 4) &&& 0xE000) ||| BitVec.ofNat 32 (fpsOf c.level * 65536 + s.partSize.toNat * 0x1000 + c.thmok.toNat * 0x100 +
      c.camlock.toNat * 0x80 + c.noint8.toNat * 0x40 + (if c.level = 2 then 0x20 else 0) + c.active.val * 0x10)
  else if off = 8 then BitVec.ofNat 32 (min 65535 s.partMib)
  else if off = 0x8C ∨ off = 0x9C then
    let b := vget s.clr.banks ((off - 0x8C) / 16) Bank.empty
    BitVec.ofNat 32 (b.int8.toNat * 0x10000 + b.reason.toNat * 256 + b.state.num)
  else if 0x600 ≤ off ∧ off < 0x630 ∧ cls ≠ 6 then 0
  else s.reg (aClr off)

/-- A write of a Clerestory register. -/
def State.clrWrite (s : State) (off : Nat) (d : W32) : State :=
  if off = 0 then
    let s := if bit d 0 then s.runStart else s.runStop
    let s := if bit d 4 then s.clrLoad 0 else s
    let s := if bit d 5 then s.clrLoad 1 else s
    if bit d 8 then s.clrSwap else s
  else if s.clr.run ∧ [0x10, 0x14, 0x18, 0x1C, 0x20, 0x30, 0x34].contains off then s
  else if off = 0x120 then s.homogCommit d
  else if off = 0x158 then s.edgeCommit d
  else if 0x200 ≤ off ∧ off < 0x400 ∧ off % 0x20 = 0x10 then s.zoneCommit ((off - 0x200) / 0x20) d
  else s.store (aClr off) d

end Sys2Proof.Machine
end

