-- ==== Sys2Proof/Machine/Lsio.lean ====
section
/-!
DEFINITION. Sys2Proof/Machine/Lsio.lean: low-speed I/O: the I²C, SPI and UART controllers and the GPIO (R578 to R585).
-/
namespace Sys2Proof.Machine

/-- R578: status bits of a controller are set; those whose IE bit is 1 raise one occurrence of LSIO. -/
def State.lsioSet (s : State) (st ie : Nat) (m : W32) : State :=
  let s1 := s.hwSet (aLsio st) m
  if m &&& s.reg (aLsio ie) = 0 then s1 else s1.raise 48

/-- A status bit that follows a level has risen (TXEMPTY, RXAVAIL). -/
def State.lsioRise (s : State) (ie : Nat) (m : W32) : State := if m &&& s.reg (aLsio ie) = 0 then s else s.raise 48

/-- The I²C controller n. -/
def State.i2c (s : State) (n : Nat) : I2c := vget s.lsio.i2c n { queue := [], rx := [], busy := false }
/-- Change an I²C controller. -/
def State.modI2c (s : State) (n : Nat) (f : I2c → I2c) : State := { s with lsio := { s.lsio with i2c := vmod s.lsio.i2c n f } }
/-- The SPI controller n. -/
def State.spi (s : State) (n : Nat) : Spi := vget s.lsio.spi n { tx := [], rx := [], csLow := 0 }
/-- Change an SPI controller. -/
def State.modSpi (s : State) (n : Nat) (f : Spi → Spi) : State := { s with lsio := { s.lsio with spi := vmod s.lsio.spi n f } }
/-- The UART n. -/
def State.uart (s : State) (n : Nat) : Uart := vget s.lsio.uart n { tx := [], rx := [], ctsN := true }
/-- Change a UART. -/
def State.modUart (s : State) (n : Nat) (f : Uart → Uart) : State := { s with lsio := { s.lsio with uart := vmod s.lsio.uart n f } }

/-! ## I²C (R579, R580) -/

/-- R580: a write of I2C_CMD: ignored while the queue is full. -/
def State.i2cPush (s : State) (n : Nat) (cmd : BitVec 3) (d : BitVec 8) : State :=
  if (s.i2c n).queue.length ≥ 16 ∨ 4 < cmd.toNat then s else s.modI2c n (fun c => { c with queue := c.queue ++ [(cmd, d)] })

/-- R580: the queue is flushed with a status bit, and is then empty. -/
def State.i2cFlush (s : State) (n : Nat) (b : Nat) : State :=
  (s.modI2c n (fun c => { c with queue := [], busy := false })).lsioSet (0x100 * n + 0xC) (0x100 * n + 0x10)
    (BitVec.ofNat 32 (2 ^ b + 16))

/-- R580: the oldest command is done. -/
def State.i2cPop (s : State) (n : Nat) (f : I2c → I2c) : State :=
  let s := s.modI2c n (fun c => f { c with queue := c.queue.drop 1 })
  if (s.i2c n).queue.isEmpty then s.lsioSet (0x100 * n + 0xC) (0x100 * n + 0x10) 16 else s

/-- R42: how a command ends on a bus that bank A shows; while bank A is unpowered its inputs are ignored and how the command ends
is free. -/
def State.i2cSeen (s : State) (e : I2cEnd) : I2cEnd × State :=
  if s.bankUp 0 then (e, s)
  else
    let (w, s) := s.drawWord
    (if bit w 8 then .nack else if bit w 9 then .arbLost else .done (w.truncate 8), s)

/-- R579, R580: I2C_COMMAND_DONE. -/
def execI2cCommandDone (n : Fin 3) (e : I2cEnd) (s : State) : Out :=
  let k := n.val
  let (e, s) := s.i2cSeen e
  match (s.i2c k).queue with
  | [] => .next s
  | (cmd, _) :: _ =>
    if ¬ s.flag (aLsio (0x100 * k)) 0 ∨ ¬ s.unitReady 21 then .next s
    else match e with
      | .arbLost => .next (s.i2cFlush k 2)
      | .nack => .next (if cmd.toNat ≤ 1 then s.i2cFlush k 1 else s)
      | .done rx =>
        if cmd.toNat = 0 then .next (s.i2cPop k (fun c => { c with busy := true }))
        else if cmd.toNat = 2 ∨ cmd.toNat = 3 then
          .next (if (s.i2c k).rx.length ≥ 16 then s else s.i2cPop k (fun c => { c with rx := c.rx ++ [rx] }))
        else if cmd.toNat = 4 then .next (s.i2cPop k (fun c => { c with busy := false }))
        else .next (s.i2cPop k id)

/-- R579, R580: I2C_STRETCH_TIMEOUT. -/
def execI2cStretchTimeout (n : Fin 3) (s : State) : Out :=
  .next (if (s.i2c n.val).queue.isEmpty ∧ ¬ (s.i2c n.val).busy then s else s.i2cFlush n.val 3)

/-- R580: I2C_START. -/
def execI2cStart (n : Fin 3) (data : BitVec 8) (s : State) : Out := .next (s.unitAct 21 (fun s => s.i2cPush n.val 0 data))
/-- R580: I2C_SEND. -/
def execI2cSend (n : Fin 3) (data : BitVec 8) (s : State) : Out := .next (s.unitAct 21 (fun s => s.i2cPush n.val 1 data))
/-- R580: I2C_READ_ACK. -/
def execI2cReadAck (n : Fin 3) (s : State) : Out := .next (s.unitAct 21 (fun s => s.i2cPush n.val 2 0))
/-- R580: I2C_READ_NACK. -/
def execI2cReadNack (n : Fin 3) (s : State) : Out := .next (s.unitAct 21 (fun s => s.i2cPush n.val 3 0))
/-- R580: I2C_STOP. -/
def execI2cStop (n : Fin 3) (s : State) : Out := .next (s.unitAct 21 (fun s => s.i2cPush n.val 4 0))

/-! ## SPI (R581, R582) -/

/-- R582: a write of SPI_TX: ignored while the FIFO is full. -/
def State.spiPush (s : State) (n : Nat) (d : BitVec 8) (cs last : Bool) : State :=
  if (s.spi n).tx.length ≥ 32 then s else s.modSpi n (fun c => { c with tx := c.tx ++ [(d, cs, last)] })

/-- R582: SPI_TX_WRITE. -/
def execSpiTxWrite (n : Fin 2) (data : BitVec 8) (cs last : Bool) (s : State) : Out :=
  .next (s.unitAct 21 (fun s => s.spiPush n.val data cs last))

/-- R42: what SPI_MISO or another input of bank A brings; free while the bank is unpowered. -/
def State.seenA (s : State) (x : BitVec 8) : BitVec 8 × State :=
  if s.bankUp 0 then (x, s)
  else
    let (w, s) := s.drawWord
    (w.truncate 8, s)

/-- R582: SPI_BYTE_DONE: the chip select that CS names is low for the byte, and high after a LAST one; a byte that finds the receive
FIFO full waits. -/
def execSpiByteDone (n : Fin 2) (rx : BitVec 8) (s : State) : Out :=
  let k := n.val
  let (rx, s) := s.seenA rx
  match (s.spi k).tx with
  | [] => .next s
  | (_, cs, last) :: rest =>
    if (s.spi k).rx.length ≥ 32 ∨ ¬ s.flag (aLsio (0x400 + 0x100 * k)) 0 then .next s
    else
      let s := s.modSpi k (fun c => { tx := rest, rx := c.rx ++ [rx], csLow := putBit c.csLow cs.toNat (!last) })
      .next (if rest.isEmpty then s.lsioSet (0x400 + 0x100 * k + 0xC) (0x400 + 0x100 * k + 0x10) 2 else s)

/-! ## UART (R583, R584) -/

/-- R583: a write of UART_TX: ignored while the FIFO is full. -/
def State.uartPush (s : State) (n : Nat) (d : BitVec 8) : State :=
  if (s.uart n).tx.length ≥ 64 then s else s.modUart n (fun c => { c with tx := c.tx ++ [d] })

/-- UART_TX_WRITE. -/
def execUartTxWrite (n : Fin 2) (data : BitVec 8) (s : State) : Out := .next (s.unitAct 21 (fun s => s.uartPush n.val data))

/-- R583: UART_CHAR_SENT: with FLOW at 1 only while CTS_N is low (its level is free while bank A is unpowered, R42). -/
def execUartCharSent (n : Fin 2) (s : State) : Out :=
  let k := n.val
  let cfg := aLsio (0x800 + 0x100 * k)
  let (cts, s) := if s.bankUp 0 then ((s.uart k).ctsN, s) else s.drawBool
  if (s.uart k).tx.isEmpty ∨ ¬ s.flag cfg 0 ∨ (s.flag cfg 1 ∧ cts) then .next s
  else
    let s := s.modUart k (fun c => { c with tx := c.tx.drop 1 })
    .next (if (s.uart k).tx.isEmpty then s.lsioRise (0x800 + 0x100 * k + 0x14) 1 else s)

/-- R584: UART_CHAR_RX; nothing comes in while bank A is unpowered (R42). -/
def execUartCharRx (n : Fin 2) (data : BitVec 8) (pe fe brk : Bool) (s : State) : Out :=
  let k := n.val
  let cfg := aLsio (0x800 + 0x100 * k)
  if ¬ s.flag cfg 0 ∨ ¬ s.unitReady 21 ∨ ¬ s.bankUp 0 then .next s
  else if (s.uart k).rx.length ≥ 64 then .next (s.lsioSet (0x800 + 0x100 * k + 0x10) (0x800 + 0x100 * k + 0x14) 4)
  else
    let d := if brk then 0 else if s.flag cfg 5 then data &&& 0x7F else data
    let c : BitVec 11 := BitVec.ofNat 11 (d.toNat + 256 * (pe && s.field cfg 3 2 != 0).toNat + 512 * fe.toNat + 1024 * brk.toNat)
    let first := (s.uart k).rx.isEmpty
    let s := s.modUart k (fun u => { u with rx := u.rx ++ [c] })
    .next (if first then s.lsioRise (0x800 + 0x100 * k + 0x14) 2 else s)

/-- R583: the level of RTS_N: low with FLOW at 1 while the receive FIFO has at least 8 free entries, else high. -/
def State.uartRtsN (s : State) (n : Nat) : Bool :=
  !(s.flag (aLsio (0x800 + 0x100 * n)) 1 && decide ((s.uart n).rx.length ≤ 56))

/-- R583: UART_CTS_N_CHANGE. -/
def execUartCtsNChange (n : Fin 2) (level : Bool) (s : State) : Out :=
  .next (s.modUart n.val (fun u => { u with ctsN := level }))

/-! ## The boundary register's drive (R587, R588) -/

/-- R587: the instructions that the gate can close. -/
def TapInstr.gated : TapInstr → Bool
  | .samplePreload | .extest | .clamp | .highz | .dbgXfer => true
  | .idcode | .bypass => false

/-- R587: how the instruction register acts. -/
def State.tapActs (s : State) : TapInstr := if s.tap.ir.gated ∧ ¬ bit s.dbg.gate 1 then .bypass else s.tap.ir

/-- R588: what the boundary register does with ball i of its order: none: the ball is its unit's; some none: high impedance; some a
level: driven. -/
def State.scanDrive (s : State) (i : Nat) : Option (Option Bool) :=
  match s.tapActs with
  | .extest | .clamp => some (if bit s.tap.cells (3 * i + 1) then some (bit s.tap.cells (3 * i)) else none)
  | .highz => some none
  | _ => none

/-! ## GPIO (R585) -/

/-- R585, R588: the level at GPIOn: what the ball drives, or what stands on it. -/
def State.gpioLevel (s : State) (n : Nat) : Bool :=
  if ¬ s.gpioPowered n then false
  else match s.scanDrive (24 + n) with
  | some d => d.getD (bit s.lsio.gpioIn n)
  | none =>
    let cfg := s.reg (aLsio (0xC00 + 4 * n))
    let ext := bit s.lsio.gpioIn n
    let drive := fun (b : Bool) => if bit cfg 8 ∧ b then ext else b
    match bits cfg 1 0 with
    | 1 => drive (s.flag (aLsio 0xC80) n)
    | 2 => drive (s.gtOut (bits cfg 6 2 / 2) (bits cfg 6 2 % 2))
    | _ => ext

/-- R438: one timer cycle of the edge detectors, each on the ball that its GPIO field names. -/
def State.edTicks (s : State) : State :=
  (List.range 16).foldl (fun s n => s.edCycle n (s.gpioLevel (s.field (aEd n 0) 4 0))) s

/-- R585: the edges at the balls since they were last seen that IRQ selects. -/
def State.gpioEdges (s : State) : W32 :=
  (List.range 32).foldl (fun m n =>
    let was := bit s.lsio.gpioSeen n
    let now := s.gpioLevel n
    let irq := s.field (aLsio (0xC00 + 4 * n)) 13 12
    putBit m n (was != now && (if now then irq % 2 == 1 else irq / 2 == 1))) 0

/-- R585, R578: the levels at the balls are seen, those that the part drives itself among them; an edge that IRQ selects is
recorded. -/
def State.gpioSample (s : State) : State :=
  if ¬ s.unitReady 21 then s
  else
    let m := s.gpioEdges
    let now := (List.range 32).foldl (fun w n => putBit w n (s.gpioLevel n)) s.lsio.gpioSeen
    let s := { s with lsio := { s.lsio with gpioSeen := now } }
    if m = 0 then s else s.lsioSet 0xC90 0xC94 m

/-- R585: GPIO_SET. -/
def execGpioSet (data : BitVec 32) (s : State) : Out := .next (s.unitAct 21 (fun s => (s.orReg (aLsio 0xC80) data).gpioSample))
/-- R585: GPIO_CLR. -/
def execGpioClr (data : BitVec 32) (s : State) : Out := .next (s.unitAct 21 (fun s => (s.clrReg (aLsio 0xC80) data).gpioSample))

/-- R585, R578: GPIO_EDGE: the level that stands on a ball from outside changes. -/
def execGpioEdge (n : Fin 32) (level : Bool) (s : State) : Out :=
  .next { s with lsio := { s.lsio with gpioIn := putBit s.lsio.gpioIn n.val level } }.gpioSample

/-! ## Registers -/

/-- I2C_STATUS. -/
def State.i2cStatus (s : State) (n : Nat) : W32 :=
  let c := s.i2c n
  putBits (putBits (putBit (s.reg (aLsio (0x100 * n + 0xC))) 0 (c.busy || !c.queue.isEmpty)) 12 8 (16 - c.queue.length)) 20 16 c.rx.length
/-- SPI_STATUS. -/
def State.spiStatus (s : State) (n : Nat) : W32 :=
  let c := s.spi n
  putBits (putBits (putBit (s.reg (aLsio (0x400 + 0x100 * n + 0xC))) 0 (!c.tx.isEmpty)) 13 8 (32 - c.tx.length)) 21 16 c.rx.length
/-- UART_STATUS. -/
def State.uartStatus (s : State) (n : Nat) : W32 :=
  let c := s.uart n
  putBits (putBits (putBit (putBit (s.reg (aLsio (0x800 + 0x100 * n + 0x10))) 0 c.tx.isEmpty) 1 (!c.rx.isEmpty)) 14 8 (64 - c.tx.length))
    22 16 c.rx.length

/-- R578: LSIO_EVENT: the controllers that hold an enabled status bit. -/
def State.lsioEvent (s : State) : W32 :=
  let i := fun n => (s.i2cStatus n &&& s.reg (aLsio (0x100 * n + 0x10)) &&& 0x1E) != 0
  let p := fun n => (s.spiStatus n &&& s.reg (aLsio (0x400 + 0x100 * n + 0x10)) &&& 2) != 0
  let u := fun n => (s.uartStatus n &&& s.reg (aLsio (0x800 + 0x100 * n + 0x14)) &&& 7) != 0
  let g := (s.reg (aLsio 0xC90) &&& s.reg (aLsio 0xC94)) != 0
  BitVec.ofNat 32 ((i 0).toNat + 2 * (i 1).toNat + 4 * (i 2).toNat + 8 * (p 0).toNat + 16 * (p 1).toNat + 32 * (u 0).toNat +
    64 * (u 1).toNat + 128 * g.toNat)

/-- The word that a register of the unit reads. -/
def State.lsioView (s : State) (off : Nat) : W32 :=
  let n := off % 0x400 / 0x100
  let o := off % 0x100
  if off < 0x300 then
    if o = 8 then ((s.i2c n).rx.headD 0).zeroExtend 32 else if o = 0xC then s.i2cStatus n else s.reg (aLsio off)
  else if 0x400 ≤ off ∧ off < 0x600 then
    if o = 8 then ((s.spi n).rx.headD 0).zeroExtend 32 else if o = 0xC then s.spiStatus n else s.reg (aLsio off)
  else if 0x800 ≤ off ∧ off < 0xA00 then
    if o = 0xC then (match (s.uart n).rx with | [] => 0 | c :: _ => putBit (c.zeroExtend 32) 31 true)
    else if o = 0x10 then s.uartStatus n else s.reg (aLsio off)
  else if off = 0xC8C then BitVec.ofNat 32 ((List.range 32).foldl (fun m i => m + (s.gpioLevel i).toNat * 2 ^ i) 0)
  else if off = 0xF00 then s.lsioEvent
  else s.reg (aLsio off)

/-- R8: what a read of a register of the unit removes. -/
def State.lsioRead (s : State) (off : Nat) : State :=
  let n := off % 0x400 / 0x100
  if off < 0x300 ∧ off % 0x100 = 8 then s.modI2c n (fun c => { c with rx := c.rx.drop 1 })
  else if 0x400 ≤ off ∧ off < 0x600 ∧ off % 0x100 = 8 then s.modSpi n (fun c => { c with rx := c.rx.drop 1 })
  else if 0x800 ≤ off ∧ off < 0xA00 ∧ off % 0x100 = 0xC then s.modUart n (fun c => { c with rx := c.rx.drop 1 })
  else s

/-- A write of a register of the unit. -/
def State.lsioWrite (s : State) (off : Nat) (d : W32) : State :=
  let n := off % 0x400 / 0x100
  if off < 0x300 ∧ off % 0x100 = 4 then s.i2cPush n (d.extractLsb' 8 3) (d.truncate 8)
  else if 0x400 ≤ off ∧ off < 0x600 ∧ off % 0x100 = 4 then s.spiPush n (d.truncate 8) (bit d 8) (bit d 9)
  else if 0x800 ≤ off ∧ off < 0xA00 ∧ off % 0x100 = 8 then s.uartPush n (d.truncate 8)
  else if off = 0xC84 then (s.orReg (aLsio 0xC80) d).gpioSample
  else if off = 0xC88 then (s.clrReg (aLsio 0xC80) d).gpioSample
  else if 0xC00 ≤ off ∧ off < 0xC84 then ((s.gpioSample).store (aLsio off) d).gpioSample
  else s.store (aLsio off) d

end Sys2Proof.Machine
end

