-- ==== Sys2Proof/Machine/Updates.lean ====
section
/-!
DEFINITION. Sys2Proof/Machine/Updates.lean: staging, activation, live exchange, confirmation and the service UART
(R504, R509 to R514). LG_MEASURE stands in Machine/Measure.lean.
-/
namespace Sys2Proof.Machine

/-- R506, R513: the service UART is served: by the firmware, or by the ROM while no image starts. -/
def State.svcUp (s : State) : Bool := s.fw || s.power.sacPhase == .armed

/-- R513: a frame of the service UART. -/
def svcFrame (cmd : Nat) (payload : List Byte) : List Byte :=
  let body := BitVec.ofNat 8 cmd :: (toBytes 2 payload.length ++ payload)
  0xA5 :: (body ++ toBytes 2 (crc16 body).toNat)

/-- R513: an answer goes out on the service UART, its CMD with bit 7 set. -/
def State.svcAnswer (s : State) (cmd : Nat) (payload : List Byte) : State :=
  ({ s with sac := { s.sac with svcTx := svcFrame (128 + cmd) payload } }).sacEvent 8

/-- What a staging service answers: status, bytes from byte 4 on, and what follows the answer. -/
structure StageAns where
  /-- Status (R475). -/
  status : Nat
  /-- Bytes from byte 4. -/
  rest : List Byte
  /-- 0 nothing, 1 a Sacristy reset, 2 a Nave reset with cause SAC_REQ. -/
  after : Nat
deriving DecidableEq, Repr

/-- R510, R513: a staging service asked over the Hatch or the service UART; `f` takes the message and the data, if they
come over the UART. -/
def State.stageServe (s : State) (src : StageSrc) (typ : Nat)
    (f : List Byte → Option (List Byte) → State → StageAns × State) : State :=
  match src with
  | .hatch i =>
    let (m, can) := match s.hatch.order with
      | j :: _ => ((s.txSlot i.val).bytes, j == i && i.val != 15 && (s.txSlot i.val).type == typ && s.fw)
      | [] => ([], false)
    let after := if can then (f m none s).1.after else 0
    let s := s.serve i typ (fun m _ s => let (a, s) := f m none s; (some (a.status, a.rest), s))
    if after = 1 then s.sacReset 2 else if after = 2 then s.requestNaveReset 5 else s
  | .uart m data =>
    if ¬ s.svcUp ∨ s.sac.life = .decommissioned then s
    else
      let (a, s) := f m (some data) s
      let s := s.svcAnswer (typ - 0x40) (BitVec.ofNat 8 a.status :: a.rest)
      if a.after = 1 then s.sacReset 2 else if a.after = 2 then s.requestNaveReset 5 else s

/-- R510: a staging that runs, if the request comes from where it began: none: DENIED, some none: BUSY. -/
def State.stagingFor (s : State) (uart : Bool) : Option (Option Staging) :=
  s.sac.upd.staging.map (fun g => if g.uart = uart then some g else none)

/-- Change the updates' state. -/
def State.modUpd (s : State) (f : Updates → Updates) : State := { s with sac := { s.sac with upd := f s.sac.upd } }

/-- R510: STAGE_BEGIN; an image length of 0 or beyond the slot is BAD_ARG (DEDUCED, log 18); a measurement of what the slot held
ends; `verified`: the erases verify (R495). -/
def execStageBegin (src : StageSrc) (verified : Bool) (s : State) : Out :=
  .next (s.stageServe src 0x50 (fun m data s =>
    let kind := leField m 4 1
    let len := leField m 8 4
    let k := kind - 1
    let a := s.inactive k
    let n := (len + 65535) / 65536 * 16
    let sec := slotBase k / 4096
    if s.sac.upd.staging.isSome then (⟨4, [], 0⟩, s)
    else if kind ≠ 1 ∧ kind ≠ 2 ∨ len = 0 ∨ imageLimit kind < len then (⟨2, [], 0⟩, s)
    else if (List.range n).any (fun j => !(s.aisle a).mayErase (sec + j)) then (⟨5, [], 0⟩, s.log .wornOut 2 sec)
    else if ¬ verified then (⟨5, [], 0⟩, s.log .flashFailed 2 sec)
    else
      let s := (s.withdrawStaged a k).modAisle a (fun f => f.eraseSectors sec n)
      (⟨0, [BitVec.ofNat 8 a], 0⟩,
       s.modUpd (fun u => { u with
        measured := if k = 1 then false else u.measured
        staging := some { kind := if k = 0 then 0 else 1, len := len, uart := data.isSome, aisle := if a = 0 then 0 else 1 } }))))

/-- R510: STAGE_WRITE; `verified`: the margin reads pass (R495), without which the words stand as programmed and the answer is
FAILED. -/
def execStageWrite (src : StageSrc) (verified : Bool) (s : State) : Out :=
  .next (s.stageServe src 0x51 (fun m data s =>
    let off := leField m 4 4
    let win := leField m 8 2
    let len := leField m 10 2
    match s.stagingFor data.isSome with
    | none => (⟨3, [], 0⟩, s)
    | some none => (⟨4, [], 0⟩, s)
    | some (some g) =>
      let bs := match data with
        | some d => d
        | none => s.winRead win len
      let w := (slotBase g.kind.val + off) / 32
      if off % 32 ≠ 0 ∨ len % 32 ≠ 0 ∨ len < 32 ∨ 4096 < len ∨ g.len < off + len ∨ bs.length ≠ len ∨
          (data.isNone ∧ ¬ windowOk win len) then (⟨2, [], 0⟩, s)
      else if (List.range (len / 32)).any (fun j => ((s.aisle g.aisle.val).word (w + j)).isSome) then
        (⟨5, [], 0⟩, s.log .flashFailed 2 w)
      else
        let s := s.modAisle g.aisle.val (fun f => f.progs w (wordsOf (len / 32) bs))
        if verified then (⟨0, [], 0⟩, s) else (⟨5, [], 0⟩, s.log .flashFailed 2 w)))

/-- R510, R503: STAGE_END. -/
def execStageEnd (src : StageSrc) (readable sigOk : Bool) (s : State) : Out :=
  .next (s.stageServe src 0x52 (fun _ data s =>
    match s.stagingFor data.isSome with
    | none => (⟨3, [], 0⟩, s)
    | some none => (⟨4, [], 0⟩, s)
    | some (some g) =>
      let r := s.imageReason g.aisle.val g.kind.val readable sigOk
      let s := s.modUpd (fun u => { u with staging := none })
      if r = 0 then (⟨0, [], 0⟩, (s.setSlot g.aisle.val g.kind.val .staged).log .slotChange 0 g.kind.val)
      else (⟨5, toBytes 4 r, 0⟩, s)))

/-- R510, R513: ACTIVATE. -/
def execActivate (src : StageSrc) (s : State) : Out :=
  .next (s.stageServe src 0x53 (fun m _ s =>
    let kind := leField m 4 1
    let k := kind - 1
    let a := s.inactive k
    if kind ≠ 1 ∧ kind ≠ 2 then (⟨2, [], 0⟩, s)
    else if (s.slot a k).state ≠ .staged then (⟨3, [], 0⟩, s)
    else
      let s := (s.setSlot a k .trial).log .slotChange 0 k
      let s := if k = 1 then s.modUpd (fun u => { u with waitActivate := false, measured := false }) else s
      (⟨0, [], if leField m 5 1 = 1 then kind else 0⟩, s)))

/-- R510: LG_COMMIT: the running Nave image is from now the one in the slot. -/
def execLgCommit (i : Fin 16) (s : State) : Out :=
  .next (s.serve i 0x55 (fun m _ s =>
    let d := leField m 4 4
    let a := s.inactive 1
    if d < 1 ∨ 600 < d then (some (2, []), s)
    else if ¬ s.sac.upd.measured ∨ (s.slot a 1).state ≠ .staged then (some (3, []), s)
    else
      let s := (s.setSlot a 1 .trying d).log .slotChange 0 1
      let s := s.setRunning 1 (some (if a = 0 then 0 else 1))
      (some (0, []), s.modUpd (fun u => { u with measured := false, deadline := some d }))))

/-- R510: LG_ABORT. -/
def execLgAbort (i : Fin 16) (s : State) : Out :=
  .next (s.serve i 0x56 (fun _ _ s =>
    if s.sac.upd.measured then (some (0, []), s.modUpd (fun u => { u with measured := false })) else (some (3, []), s)))

/-- R504: the counter of a kind. -/
def State.svnFuse (s : State) (k : Nat) : Nat := if k = 0 then s.sac.upd.f0 else s.sac.upd.f1

/-- R504, R509: a TRYING image is confirmed; none: the blow of the fuses fails. -/
def State.confirmImg (s : State) (a k : Nat) (blown : Bool) : Option State :=
  let svn := (s.slot a k).svn
  if s.svnFuse k < svn ∧ ¬ blown then none
  else
    let s := (s.setSlot a k .confirmed).log .slotChange 0 k
    let n := max (s.svnFuse k) svn
    some (s.modUpd (fun u => if k = 0 then { u with f0 := n } else { u with f1 := n, deadline := none }))

/-- R509, R510: CONFIRM. -/
def execConfirm (i : Fin 16) (blown : Bool) (s : State) : Out :=
  .next (s.serve i 0x57 (fun m _ s =>
    if leField m 4 1 ≠ 2 then (some (2, []), s)
    else match s.runningImg 1 with
      | none => (some (3, []), s)
      | some a =>
        if (s.slot a.val 1).state ≠ .trying ∨ s.sac.upd.expired then (some (3, []), s)
        else match s.confirmImg a.val 1 blown with
          | some s => (some (0, []), s)
          | none => (some (5, []), s.log .confirmFailed 2)))

/-- R510: SLOT_INFO. -/
def execSlotInfo (i : Fin 16) (s : State) : Out :=
  .next (s.serve i 0x58 (fun _ _ s =>
    let u := s.sac.upd
    (some (0, toBytes 2 u.f0 ++ toBytes 2 u.f1 ++ u.slots.toList.map (fun x => BitVec.ofNat 8 x.state.code) ++ [0, 0, 0, 0]), s)))

/-- R511: EXCHANGE_DEADLINE: a Nave reset with cause SAC_REQ. -/
def execExchangeDeadline (s : State) : Out :=
  if ¬ s.fw ∨ s.sac.upd.deadline.isNone then .next s
  else .next ((s.modUpd (fun u => { u with deadline := none, expired := true })).requestNaveReset 5)

/-- R509, R504: FIRMWARE_SELF_CONFIRM: after ten minutes without a Sacristy reset. -/
def execFirmwareSelfConfirm (blown : Bool) (s : State) : Out :=
  match s.runningImg 0 with
  | none => .next s
  | some a =>
    if ¬ s.fw ∨ (s.slot a.val 0).state ≠ .trying then .next s
    else match s.confirmImg a.val 0 blown with
      | some s => .next s
      | none => .next (s.log .confirmFailed 2)

/-! ## The service UART (R513) -/

/-- R513: STATUS: life cycle, BOOTSEL, F0, F1 (two bytes each), the four slot states, the last SYSCTL_RESET_CAUSE
(widths and order: DESIGN CHOICE, log 11). -/
def execSvcStatus (s : State) : Out :=
  if ¬ s.svcUp then .next s
  else
    let u := s.sac.upd
    .next (s.svcAnswer 1 ([0, BitVec.ofNat 8 s.sac.life.code, BitVec.ofNat 8 s.straps.bootsel.toNat] ++ toBytes 2 u.f0 ++
      toBytes 2 u.f1 ++ u.slots.toList.map (fun x => BitVec.ofNat 8 x.state.code) ++ toBytes 4 (s.reg aCause).toNat))

/-- R477, R478: the record of a SEQ in the log region. -/
def State.logRecord (s : State) (seq : Nat) : Option (BitVec 256) :=
  (s.aisle 0).words.findSome? (fun p =>
    match p.2 with
    | .programmed d => if logWord0 ≤ p.1 ∧ p.1 < logWord0 + 32768 ∧ bits d 95 64 = seq then some d else none
    | _ => none)

/-- R513: LOG_READ: the records held among `count` from `first` on. -/
def execSvcLogRead (first : BitVec 32) (count : Nat) (s : State) : Out :=
  if ¬ s.svcUp then .next s
  else if count < 1 ∨ 128 < count then .next (s.svcAnswer 2 [2])
  else .next (s.svcAnswer 2 (0 :: (List.range count).flatMap (fun i =>
    match s.logRecord (first.toNat + i) with
    | some d => wordBytes d
    | none => [])))

/-- R513: SVC_FRAME_TIMEOUT: the frame begun is discarded. -/
def execSvcFrameTimeout (s : State) : Out := .next { s with sac := { s.sac with svcRx := [] } }

end Sys2Proof.Machine
end

