-- ==== Sys2Proof/Machine/Bus.lean ====
section
/-!
DEFINITION. Sys2Proof/Machine/Bus.lean: accesses to register space: which sizes are performed (R5), which block answers
(R28, R29, R35, R36), 64-bit pairs (R6), fields (R7 to R13), and the registers of SYSCTL, the interrupt router, the stall
scheduler and the doorbells.
-/
namespace Sys2Proof.Machine

/-- What a register block is told of the initiator: its class (R281), and whether it is an enclosed stall (R163, R253). -/
structure Req where
  /-- Class. -/
  cls : Nat
  /-- An enclosed stall. -/
  enc : Bool
deriving DecidableEq, Repr

/-! ## Blocks (R28, R30, R35, R36) -/

/-- The units that have a block in the peripheral space. -/
def assignedUnits : List Nat :=
  [0x00, 0x01, 0x02, 0x03, 0x04, 0x08, 0x09, 0x0A, 0x0B, 0x0C, 0x10, 0x11, 0x12, 0x13, 0x18, 0x20, 0x28, 0x29, 0x30, 0x38]

/-- R30: the READY bit that governs a block, if it has one (R36, R37). -/
def blockBit (n : Nat) : Option Nat :=
  if 0x08 ≤ n ∧ n < 0x0C then some (4 + (n - 0x08))
  else if 0x10 ≤ n ∧ n < 0x14 then some (8 + (n - 0x10))
  else match n with
    | 0x03 => some 18
    | 0x0C => some 19
    | 0x18 => some 13
    | 0x20 => some 12
    | 0x28 => some 17
    | 0x30 => some 21
    | 0x38 => some 22
    | _ => none

/-- What becomes of an access to register space. -/
inductive Gate where
  /-- R5: size or alignment refused. -/
  | bad
  /-- R29: an unassigned slot. -/
  | hole
  /-- R35: an absent unit. -/
  | absent (u : Nat)
  /-- R36: a present unit that is not ready. -/
  | early (u : Nat)
  /-- The block answers. -/
  | ok
deriving DecidableEq, Repr

/-- R5: the accesses that register space takes. -/
def regSized (a n : Nat) : Bool := (n == 4 && a % 4 == 0) || (n == 8 && a % 8 == 0)

/-- R5, R29, R35, R36: where an access of n bytes to register space ends. -/
def State.busGate (s : State) (a n : Nat) : Gate :=
  if ¬ regSized a n then .bad
  else if 0x30000000 ≤ a then (if s.unitReady 20 then .ok else .early 20)
  else
    let k := (a - 0x20000000) / 0x10000
    if ¬ assignedUnits.contains k then .hole
    else match blockBit k with
      | none => .ok
      | some u => if ¬ s.hasUnit u then .absent u else if s.unitReady u then .ok else .early u

/-- R35, R36: what an access that no block answers leaves behind. -/
def State.busMiss (s : State) : Gate → State
  | .absent u => s.missAbsent u
  | .early u => s.missEarly u
  | _ => s

/-! ## SYSCTL (chapters 01, 03, 21) -/

/-- The word that a SYSCTL register reads. -/
def State.sysctlView (s : State) (off : Nat) : W32 :=
  match off with
  | 0x00 => s.chip.variant.part ++ s.chip.naveRev ++ s.chip.sacRev
  | 0x04 => BitVec.ofNat 32 (s.gateway.toNat + 4 * s.straps.bootsel.toNat + 16 * (s.straps.role && !s.gateway).toNat)
  | 0x10 => s.chip.variant.present.zeroExtend 32
  | 0x40 => BitVec.ofNat 32 s.waitBits
  | 0x48 => s.tt.now.truncate 32
  | 0x4C => (s.tt.now >>> 32).truncate 32
  | 0x50 => putBits (s.reg aTtStatus) 1 0 s.ttSrc
  | 0x60 =>
    let d := s.sac.derate
    let wear := (d.ageing.any (fun a => decide (400 ≤ a))).toNat +
      2 * (d.eyeReq.toList.any (fun r => match r with
        | some (l, _) => l != 0
        | none => false)).toNat + 4 * d.flash.toNat
    BitVec.ofNat 32 (d.level.toNat + 16 * s.derateCauses + 256 * wear)
  | _ => s.reg (0x20000000 + off)

/-- R105, R79: a write of SYSCTL_PARK. -/
def State.parkWrite (s : State) (d : W32) : State :=
  (List.range 23).foldl (fun s u => if bit d u then s.park u else s.unpark u) s

/-- A write of a SYSCTL register; TT_SET acts as a whole pair. -/
def State.sysctlWrite (s : State) (off : Nat) (d : W32) : State :=
  match off with
  | 0x18 => (s.store aRise d).checkLevels
  | 0x1C => (s.store aFall d).checkLevels
  | 0x34 => if bits d 31 16 = 0x5AC7 ∧ bit d 0 then s.requestNaveReset 2 else s
  | 0x38 => s.parkWrite d
  | 0x54 => s.ttCtrl d
  | 0x58 => s
  | 0x5C => s
  | _ => s.store (0x20000000 + off) d

/-! ## The interrupt router (R253) -/

/-- R253: the bits of enclosed stalls that a write may not touch. -/
def State.enclMask (s : State) (r : Req) : W32 := if r.enc then 0 else s.reg aEnclose

/-- A write of an interrupt router register; a new mode may make a pending event deliverable (R250). -/
def State.intrWrite (s : State) (r : Req) (off : Nat) (d : W32) : State :=
  let a := 0x20010000 + off
  if off < 440 ∧ off % 8 = 0 then
    let m := s.enclMask r
    s.setReg a ((d &&& ~~~ m) ||| (s.reg a &&& m))
  else if off < 440 ∧ off % 8 = 4 then
    if s.reg (a - 4) &&& s.enclMask r ≠ 0 then s else (s.store a d).rouseAll
  else s.store a d

/-! ## The stall scheduler's configuration (R163, R166, R167) -/

/-- R146: the code of a stall's state. -/
def StallState.code : StallState → Nat
  | .off => 0
  | .ready => 1
  | .running => 2
  | .waiting => 3
  | .far => 4
  | .miss => 5
  | .stopped => 6
  | .halted => 7
  | .lockdown => 8

/-- A core is absent or parked. -/
def State.coreOut (s : State) (c : Nat) : Bool := !s.hasUnit c || s.flag aPark c

/-- The word that a stall scheduler register reads. -/
def State.schedView (s : State) (off : Nat) : W32 :=
  let c := off / 0x40
  if off < 0x100 then
    if s.coreOut c then 0
    else if off % 0x40 = 0 then BitVec.ofNat 32 ((List.range 8).foldl (fun m n => m + (s.stall (8 * c + n)).state.code * 16 ^ n) 0)
    else if off % 0x40 = 4 then BitVec.ofNat 32 ((List.range 8).foldl (fun m n => m + (s.stall (8 * c + n)).prio.toNat * 16 ^ n) 0)
    else s.reg (0x20020000 + off)
  else s.reg (0x20020000 + off)

/-- A write of a stall scheduler register. -/
def State.schedWrite (s : State) (r : Req) (off : Nat) (d : W32) : State :=
  let c := off / 0x40
  let a := 0x20020000 + off
  if off < 0x100 then
    if s.coreOut c then s
    else if off % 0x40 = 4 then
      (List.range 8).foldl (fun s n =>
        if s.enclosed (8 * c + n) ∧ ¬ r.enc then s
        else s.modStall (8 * c + n) (fun t => { t with prio := BitVec.ofNat 3 (bits d (4 * n + 2) (4 * n)) })) s
    else s.store a d
  else if off = 0x100 then (if s.flag aEncCtrl 1 ∧ ¬ s.flag aEncCtrl 0 then s.store a d else s)
  else s.store a d

/-! ## Doorbells (R469 to R471) -/

/-- The word that a doorbell register reads; offsets count from 0x3001_0000. -/
def State.bellView (s : State) (off : Nat) : W32 :=
  let tx := decide (off < 0x400)
  let k := off % 0x400 / 64
  let h := if tx then s.txSlot k else s.rxSlot k
  if off % 64 < 60 then vget h.words (off % 64 / 4) 0
  else BitVec.ofNat 32 (fullMap (if tx then s.hatch.tx else s.hatch.rx) * 65536 + h.full.toNat)

/-- A write of a doorbell register by the Nave. -/
def State.bellWrite (s : State) (off : Nat) (d : W32) : State :=
  let k := off % 0x400 / 64
  if off < 0x400 then
    if (s.txSlot k).full then s
    else if off % 64 < 60 then
      { s with hatch := { s.hatch with tx := vmod s.hatch.tx k (fun h => { h with words := vset h.words (off % 64 / 4) d }) } }
    else if bit d 8 then s.hatchRing (Fin.ofNat 16 k) else s
  else if off % 64 = 60 ∧ bit d 9 then s.hatchAck k else s

/-! ## The message channel of the debug module (R596) -/

/-- The word that a core reads in the debug module's block. -/
def State.dbgView (s : State) (off : Nat) : W32 :=
  if off = 0 then s.dbg.gate
  else if 0x100 ≤ off ∧ off < 0x110 then BitVec.ofNat 32 (s.dbg.msgOut.toNat / 2 ^ (8 * (off - 0x100)))
  else if 0x120 ≤ off ∧ off < 0x130 then BitVec.ofNat 32 (s.dbg.msgIn.toNat / 2 ^ (8 * (off - 0x120)))
  else if off = 0x130 then BitVec.ofNat 32 (256 * s.dbg.outFull.toNat + 512 * s.dbg.inFull.toNat)
  else 0

/-- R596: DBG_SW_ACK. -/
def State.swAck (s : State) : State := if bit s.dbg.gate 0 then { s with dbg := { s.dbg with outFull := false } } else s
/-- R596: DBG_SW_BELL. -/
def State.swRing (s : State) : State := if bit s.dbg.gate 0 then { s with dbg := { s.dbg with inFull := true } } else s

/-- A write of a core to the debug module's block. -/
def State.dbgWrite (s : State) (off : Nat) (d : W32) : State :=
  if off = 0x110 then (if bit d 0 then s.swAck else s)
  else if 0x120 ≤ off ∧ off < 0x130 then
    if s.dbg.inFull then s
    else { s with dbg := { s.dbg with msgIn := putBits s.dbg.msgIn (8 * (off - 0x120) + 31) (8 * (off - 0x120)) d.toNat } }
  else if off = 0x130 then (if bit d 0 then s.swRing else s)
  else s

/-! ## One word -/

/-- The word that a register of a ready block reads. -/
def State.busView (s : State) (r : Req) (a : Nat) : W32 :=
  if 0x30000000 ≤ a then s.bellView (a - 0x30010000)
  else
    let off := a % 0x10000
    match (a - 0x20000000) / 0x10000 with
    | 0x00 => s.sysctlView off
    | 0x02 => s.schedView off
    | 0x03 => s.scrView off
    | 0x04 => s.memView off
    | 0x08 => s.laneView 0 off
    | 0x09 => s.laneView 1 off
    | 0x0A => s.laneView 2 off
    | 0x0B => s.laneView 3 off
    | 0x0C => s.ringView off
    | 0x10 => s.tpView 0 off
    | 0x11 => s.tpView 1 off
    | 0x12 => s.tpView 2 off
    | 0x13 => s.tpView 3 off
    | 0x18 => s.cphView off
    | 0x20 => s.clrView r.cls off
    | 0x28 => s.tmrView off
    | 0x29 => s.lampView off
    | 0x30 => s.lsioView off
    | 0x38 => s.dbgView off
    | _ => s.reg a

/-- R8: what the read of a register takes away. -/
def State.busRc (s : State) (a : Nat) : State := if (a - 0x20000000) / 0x10000 = 0x30 then s.lsioRead (a % 0x10000) else s

/-- A write of a word to a register of a ready block. -/
def State.busPut (s : State) (r : Req) (a : Nat) (d : W32) : State :=
  if 0x30000000 ≤ a then s.bellWrite (a - 0x30010000) d
  else
    let off := a % 0x10000
    match (a - 0x20000000) / 0x10000 with
    | 0x00 => s.sysctlWrite off d
    | 0x01 => s.intrWrite r off d
    | 0x02 => s.schedWrite r off d
    | 0x03 => s.scrWrite r.cls off d
    | 0x08 => s.laneWrite 0 off d
    | 0x09 => s.laneWrite 1 off d
    | 0x0A => s.laneWrite 2 off d
    | 0x0B => s.laneWrite 3 off d
    | 0x0C => s.ringWrite off d
    | 0x10 => s.tpWrite 0 off d
    | 0x11 => s.tpWrite 1 off d
    | 0x12 => s.tpWrite 2 off d
    | 0x13 => s.tpWrite 3 off d
    | 0x18 => s.cphWrite off d
    | 0x20 => s.clrWrite off d
    | 0x28 => s.tmrWrite off d
    | 0x29 => s.lampWrite off d
    | 0x30 => s.lsioWrite off d
    | 0x38 => s.dbgWrite off d
    | _ => s.store a d

/-! ## Pairs (R6) -/

/-- R6: a pair takes a 64-bit value; the pairs that act do so as a whole. -/
def State.pairPut (s : State) (r : Req) (a : Nat) (lo hi : W32) : State :=
  let s := { s with holds := AMap.erase s.holds a }
  let k := (a - 0x20000000) / 0x10000
  if a = 0x20000058 then s.ttSet (hi ++ lo)
  else if 0x10 ≤ k ∧ k < 0x14 ∧ a % 0x10000 = 0x60 then s.tpPtp (k - 0x10) (hi ++ lo)
  else (s.busPut r a lo).busPut r (a + 4) hi

/-- R9: the word that a read returns: where hardware has set W1C bits of the register since the last timer cycle, it is free
whether that was in the cycle of the read, and the register then reads as it stood before that cycle (log 39). -/
def State.cycleView (s : State) (r : Req) (a : Nat) : W32 × State :=
  match AMap.get? s.fresh a with
  | none => (s.busView r a, s)
  | some (old, _) =>
    let (same, s) := s.drawBool
    (if same then (s.setReg a old).busView r a else s.busView r a, s)

/-- R6, R8, R9: a 32-bit read of a ready block. -/
def State.busRead4 (s : State) (r : Req) (a : Nat) : W32 × State :=
  if isPairLow a then (s.busView r a, { s with latches := AMap.set s.latches a (s.busView r (a + 4)) })
  else if isPairLow (a - 4) then ((AMap.get? s.latches (a - 4)).getD 0, s)
  else
    let x := s.cycleView r a
    (x.1, x.2.busRc a)

/-- R6: a 32-bit write of a ready block. -/
def State.busWrite4 (s : State) (r : Req) (a : Nat) (d : W32) : State :=
  if isPairLow a then { s with holds := AMap.set s.holds a d }
  else if isPairLow (a - 4) then s.pairPut r (a - 4) ((AMap.get? s.holds (a - 4)).getD (s.busView r (a - 4))) d
  else s.busPut r a d

/-- R5, R6: a read of 4 or 8 bytes of a ready block. -/
def State.busRead (s : State) (r : Req) (a n : Nat) : W64 × State :=
  if n = 4 then
    let x := s.busRead4 r a
    (x.1.zeroExtend 64, x.2)
  else if isPairLow a then (s.busView r (a + 4) ++ s.busView r a, s)
  else
    let x := s.busRead4 r a
    let y := x.2.busRead4 r (a + 4)
    (y.1 ++ x.1, y.2)

/-- R5, R6: a write of 4 or 8 bytes of a ready block. -/
def State.busWrite (s : State) (r : Req) (a n : Nat) (d : W64) : State :=
  if n = 4 then s.busWrite4 r a (d.truncate 32)
  else if isPairLow a then s.pairPut r a (d.truncate 32) ((d >>> 32).truncate 32)
  else (s.busWrite4 r a (d.truncate 32)).busWrite4 r (a + 4) ((d >>> 32).truncate 32)

/-- A read of register space that has passed the Screen: the gate it met and what it reads. -/
def State.regRead (s : State) (r : Req) (a n : Nat) : Gate × W64 × State :=
  match s.busGate a n with
  | .ok => (.ok, s.busRead r a n)
  | g => (g, 0, s.busMiss g)

/-- A write of register space that has passed the Screen. -/
def State.regWrite (s : State) (r : Req) (a n : Nat) (d : W64) : Gate × State :=
  match s.busGate a n with
  | .ok => (.ok, s.busWrite r a n d)
  | g => (g, s.busMiss g)

end Sys2Proof.Machine
end

