-- ==== Sys2Proof/Machine/Translate.lean ====
section
/-!
DEFINITION. Sys2Proof/Machine/Translate.lean: what an instruction's step answers, and the address translation of the
Nave cores: walks (R258 to R262), A and D (R263 to R265), the checks of one part (R267 to R270), TLBs and the walk
cache (R272 to R274), and the Screen check that follows (R182).
-/
namespace Sys2Proof.Machine

/-- What a part of an instruction answers: a value and the state, or an exception and the state. -/
inductive Res (α : Type) where
  | ok (a : α) (s : State)
  | exc (x : Exc) (s : State)

/-- Go on with the value, or keep the exception. -/
def Res.bind {α β : Type} (r : Res α) (f : α → State → Res β) : Res β :=
  match r with
  | .ok a s => f a s
  | .exc x s => .exc x s

/-- An exception of a vector with its fault address and DETAIL (R241, R243). -/
def excOf (vec faddr detail : Nat) : Exc :=
  { vec := vec, n := 0, faddr := BitVec.ofNat 64 faddr, insn := 0, detail := BitVec.ofNat 64 detail }

/-- Raise an exception. -/
def State.fail {α : Type} (s : State) (vec faddr detail : Nat) : Res α := .exc (excOf vec faddr detail) s

/-- How an access is checked. -/
structure Mode where
  /-- The kind of access (R284). -/
  kind : AccKind
  /-- Checked as a user access: user mode, or the user-access form (R193, R268, R281). -/
  user : Bool
  /-- The supervisor guard applies (R268, R270). -/
  guarded : Bool
  /-- The keys apply (R269, R270). -/
  keyed : Bool
deriving DecidableEq, Repr

/-- R237: a stall is in user mode while PCC lacks SYS. -/
def Stall.userMode (t : Stall) : Bool := !Cap.has t.pcc permSys

/-- The mode of an ordinary access of a stall; `u` is the user-access form. -/
def Stall.mode (t : Stall) (k : AccKind) (u : Bool) : Mode :=
  { kind := k, user := t.userMode || u, guarded := !t.userMode && !u, keyed := true }

/-- R270: the accesses of exception entry and RETX. -/
def tsbMode (k : AccKind) : Mode := { kind := k, user := false, guarded := false, keyed := false }

/-- R243: ACCESS and the second part. -/
def Mode.detail (m : Mode) (part2 : Bool) : Nat := m.kind.code * 64 + part2.toNat * 256

/-- R243: a MACHINE_CHECK of a kind. -/
def Mode.machine (m : Mode) (kind : Nat) : Nat := kind + m.kind.code * 64

/-! ## Page-table entries (R259 to R261) -/

/-- PPN as an address. -/
def ptePa (p : W64) : Nat := bits p 43 12 * 4096
/-- SIZE. -/
def pteSize (p : W64) : Nat := bits p 57 52
/-- KEY. -/
def pteKey (p : W64) : Nat := bits p 51 48
/-- V. -/
def pteV (p : W64) : Bool := bit p 0
/-- LEAF. -/
def pteLeaf (p : W64) : Bool := bit p 1
/-- U. -/
def pteU (p : W64) : Bool := bit p 5

/-- R260, R261: a leaf read at a level of span 2^sp is well formed. -/
def leafOk (p : W64) (sp : Nat) : Bool :=
  decide (bits p 47 44 = 0) && !(bit p 3 && !bit p 2) && decide (sp ≤ pteSize p ∧ pteSize p ≤ min (sp + 9) 47) &&
    decide (ptePa p % 2 ^ pteSize p = 0)

/-- R260: a pointer is well formed above level 3. -/
def pointerOk (p : W64) (level : Nat) : Bool := decide (level < 3 ∧ bits p 11 2 = 0 ∧ bits p 57 44 = 0)

/-- R268: the guard refuses a supervisor access to a user page. -/
def guardRefuses (sr : W32) (m : Mode) (p : W64) : Bool :=
  m.guarded && pteU p && bit sr (if m.kind = .fetch then 4 else 5)

/-- R267 step 4: the rights that an access needs. -/
def rightsOk (m : Mode) (p : W64) : Bool :=
  match m.kind with
  | .load => bit p 2
  | .store => bit p 3
  | .atomic => bit p 2 && bit p 3
  | .fetch => bit p 4

/-- R269: the key of a user page admits an access. -/
def keyOk (shut : W32) (m : Mode) (p : W64) : Bool :=
  let r := shut.toNat / 4 ^ pteKey p % 4
  !m.keyed || !pteU p ||
  match m.kind with
  | .load => r != 3
  | .store | .atomic => decide (r ≤ 1)
  | .fetch => r == 0 || r == 2

/-- R267 steps 2 to 4: the vector that a leaf raises, if any. -/
def leafFault (t : Stall) (m : Mode) (p : W64) : Option Nat :=
  if m.user ∧ ¬ pteU p then some vPageRights
  else if guardRefuses t.sr m p then some vSuperGuard
  else if ¬ rightsOk m p then some (if m.kind = .fetch then vNxFetch else vPageRights)
  else none

/-! ## TLBs and the walk cache (R272 to R274) -/

/-- XROOT.SPACE. -/
def Stall.space (t : Stall) : BitVec 12 := t.xroot.extractLsb' 52 12
/-- XROOT.EN. -/
def Stall.xlt (t : Stall) : Bool := bit t.xroot 0

/-- R272: the page of an entry contains an address. -/
def TlbEntry.covers (e : TlbEntry) (va : Nat) : Bool := e.va.toNat / 2 ^ pteSize e.leaf == va / 2 ^ pteSize e.leaf
/-- R272: an entry is used for an access. -/
def TlbEntry.hits (e : TlbEntry) (space : BitVec 12) (va : Nat) : Bool := e.covers va && (bit e.leaf 6 || e.space == space)

/-- R272, R278: the entry that serves an access. Replacement is not specified, so an entry that would serve it may have
been evicted before: a free choice for each (log 25). -/
def State.tlbLook (s : State) (i va : Nat) : Option TlbEntry × State :=
  let sp := (s.stall i).space
  let f := fun (a : List TlbEntry × Option TlbEntry × Nat) (e : TlbEntry) =>
    if a.2.1.isNone && e.hits sp va then
      if Config.freeBool a.2.2 then (a.1, none, a.2.2 + 1) else (a.1 ++ [e], some e, a.2.2 + 1)
    else (a.1 ++ [e], a.2.1, a.2.2)
  let r := (s.core (i / 8)).tlb.foldl f (([] : List TlbEntry), (none : Option TlbEntry), s.freeCtr)
  (r.2.1, { s.modCore (i / 8) (fun c => { c with tlb := r.1 }) with freeCtr := r.2.2 })

/-- R273: an entry is removed. -/
def State.tlbDrop (s : State) (i : Nat) (e : TlbEntry) : State :=
  s.modCore (i / 8) (fun c => { c with tlb := c.tlb.filter (fun x => x ≠ e) })

/-- The entries that the TLBs of a core hold at most. -/
def tlbSize : Nat := 32 + 48 + 1024

/-- A walked leaf enters the TLBs. -/
def State.tlbPut (s : State) (i : Nat) (e : TlbEntry) : State :=
  s.modCore (i / 8) (fun c =>
    { c with tlb := (e :: c.tlb.filter (fun x => !(x.space == e.space && x.src == e.src && x.va == e.va))).take tlbSize })

/-- R274: a cached pointer may be used in place of a read: a free choice (log 25). -/
def State.walkLook (s : State) (i level hi : Nat) : Option W64 × State :=
  match (s.core (i / 8)).walk.find? (fun w => w.space == (s.stall i).space && w.level == level && w.vaHi == hi) with
  | none => (none, s)
  | some w => if Config.freeBool s.freeCtr then (some w.ptr, { s with freeCtr := s.freeCtr + 1 })
              else (none, { s with freeCtr := s.freeCtr + 1 })

/-- R274: a pointer that a walk read enters the walk cache. -/
def State.walkPut (s : State) (i level hi : Nat) (p : W64) : State :=
  let e : WalkEntry := { space := (s.stall i).space, level := level, vaHi := hi, ptr := p }
  s.modCore (i / 8) (fun c =>
    { c with walk := e :: c.walk.filter (fun w => !(w.space == e.space && w.level == level && w.vaHi == hi)) })

/-! ## Store buffers (R221) -/

/-- Two ranges share a byte. -/
def shares (a n b m : Nat) : Bool := decide (a < b + m ∧ b < a + n)

/-- A stall holds a buffered store that overlaps a range. -/
def Stall.holdsStore (t : Stall) (pa n : Nat) : Bool := t.sbuf.any (fun b => shares b.pa.toNat b.data.length pa n)

/-- R221: an access of one stall waits until the overlapping stores of the others are visible. -/
def State.settleOthers (s : State) (i pa n : Nat) : State :=
  (List.range 32).foldl (fun s j => if j ≠ i ∧ (s.stall j).holdsStore pa n then s.drain j else s) s

/-- R221: every store that overlaps a range is visible. -/
def State.settle (s : State) (i pa n : Nat) : State :=
  let s := s.settleOthers i pa n
  if (s.stall i).holdsStore pa n then s.drain i else s

/-! ## The walk (R258, R265) -/

/-- R265, R243: a refusal of the walker's own access. -/
def walkDenied (v : Verdict) (m : Mode) (part2 : Bool) : Nat := v.info 1 m.kind part2 + 0x800000

/-- R265: a walk read of an entry. -/
def State.walkRead (s : State) (i : Nat) (m : Mode) (part2 : Bool) (va a : Nat) : Res W64 :=
  let c := s.screenCheck (Who.core (i / 8) false) a .load false
  if ¬ c.1.ok then c.2.fail vScreen va (walkDenied c.1 m part2)
  else if ¬ (c.2.target a).isMem then c.2.fail vMachine va (m.machine 1)
  else
    let r := c.2.readTarget (.atL2 0) a 8
    let r := match r.1 with
      | .error 4 => r.2.readTarget (.atL2 0) a 8
      | _ => r
    match r.1 with
    | .ok bs => .ok (BitVec.ofNat 64 (ofBytes bs)) r.2
    | .error _ => r.2.fail vMachine va (m.machine 3)

/-- R258: the walk from a table: the leaf and where it was read. -/
def State.walk (s : State) (i : Nat) (m : Mode) (part2 : Bool) (va : Nat) : Nat → Nat → Res (W64 × Nat)
  | 0, _ => s.fail vPageNp va (m.detail part2)
  | fuel + 1, table =>
    let level := 3 - fuel
    let sp := 39 - 9 * level
    let hit := s.walkLook i level (va / 2 ^ sp)
    match hit.1 with
    | some p => hit.2.walk i m part2 va fuel (ptePa p)
    | none =>
      let a := table + 8 * (va / 2 ^ sp % 512)
      match hit.2.walkRead i m part2 va a with
      | .exc x s => .exc x s
      | .ok p s =>
        if ¬ pteV p then s.fail vPageNp va (m.detail part2)
        else if pteLeaf p then
          if leafOk p sp then .ok (p, a) s else s.fail vPageNp va (m.detail part2)
        else if pointerOk p level then (s.walkPut i level (va / 2 ^ sp) p).walk i m part2 va fuel (ptePa p)
        else s.fail vPageNp va (m.detail part2)

/-- R258: the walk from XROOT. -/
def State.walkRoot (s : State) (i : Nat) (m : Mode) (part2 : Bool) (va : Nat) : Res (W64 × Nat) :=
  s.walk i m part2 va 4 (bits (s.stall i).xroot 43 12 * 4096)

/-! ## One part (R256, R257, R267) -/

/-- A part of an access that has been translated. -/
structure XPart where
  /-- Its lowest virtual address. -/
  va : Nat
  /-- Its bytes. -/
  n : Nat
  /-- It is the second part. -/
  second : Bool
  /-- Its physical address. -/
  pa : Nat
  /-- The attribute delivered (R294). -/
  attr : BitVec 3
  /-- A walk's leaf: where it was read, its value, and the value with A and D set (R263). -/
  leaf : Option (Nat × W64 × W64)
deriving DecidableEq, Repr

/-- R263: the leaf with A set, and D for a store or an atomic. -/
def withAd (m : Mode) (p : W64) : W64 :=
  p ||| (if m.kind = .store ∨ m.kind = .atomic then 0x180 else 0x80)

/-- R267: the checks of a leaf, then the part. -/
def State.useLeaf (s : State) (i : Nat) (m : Mode) (part2 : Bool) (va n : Nat) (p : W64) (src : Option Nat) : Res XPart :=
  let t := s.stall i
  match leafFault t m p with
  | some v => s.fail v va (m.detail part2)
  | none =>
    if ¬ keyOk t.shut m p then s.fail vKeyDeny va (m.detail part2 + pteKey p * 65536)
    else .ok { va := va, n := n, second := part2, pa := ptePa p + va % 2 ^ pteSize p, attr := p.extractLsb' 9 3,
               leaf := src.map (fun a => (a, p, withAd m p)) } s

/-- R258, R267: a part is walked and checked. -/
def State.xlateWalk (s : State) (i : Nat) (m : Mode) (part2 : Bool) (va n : Nat) : Res XPart :=
  (s.walkRoot i m part2 va).bind (fun w s => s.useLeaf i m part2 va n w.1 (some w.2))

/-- R256, R257, R267, R273: a part of n bytes at a cursor is translated and checked. -/
def State.xlate (s : State) (i : Nat) (m : Mode) (part2 : Bool) (va n : Nat) : Res XPart :=
  let t := s.stall i
  let at' := fun (pa : Nat) => ({ va := va, n := n, second := part2, pa := pa, attr := 0, leaf := none } : XPart)
  if ¬ t.xlt then
    if 0xFFFFFFFFF000 ≤ va ∧ va < 0x1000000000000 then .ok (at' (0x101FF000 + va % 4096)) s
    else if 2 ^ 44 ≤ va then s.fail vMachine va (m.machine 1)
    else .ok (at' va) s
  else if 2 ^ 48 ≤ va then s.fail vPageNp va (m.detail part2)
  else
    let k := s.tlbLook i va
    match k.1 with
    | none => k.2.xlateWalk i m part2 va n
    | some e =>
      if (leafFault t m e.leaf).isSome then (k.2.tlbDrop i e).xlateWalk i m part2 va n
      else if (m.kind = .store ∨ m.kind = .atomic) ∧ ¬ bit e.leaf 8 then k.2.xlateWalk i m part2 va n
      else k.2.useLeaf i m part2 va n e.leaf none

/-- R182, R294: a part is translated, then checked by the Screen; `memOnly` is the exception where the part must lie in
Close SRAM or fitted DRAM and does not (R128, R157). -/
def State.checkPart (s : State) (i : Nat) (m : Mode) (memOnly : Option Exc) (part2 : Bool) (va n : Nat) : Res XPart :=
  (s.xlate i m part2 va n).bind (fun p s =>
    let c := s.screenCheck (Who.core (i / 8) m.user) p.pa m.kind part2
    if ¬ c.1.ok then
      if m.kind = .fetch then c.2.fail vNxFetch va (m.detail part2)
      else c.2.fail vScreen va (c.1.info (if m.user then 0 else 1) m.kind part2)
    else
      let p := if c.1.force ∨ ¬ (s.stall i).xlt then { p with attr := c.1.attr } else p
      match memOnly with
      | some x => if (c.2.target p.pa).isMem then .ok p c.2 else .exc x c.2
      | none => .ok p c.2)

/-- R182: every part in ascending address order. -/
def State.checkParts (s : State) (i : Nat) (m : Mode) (memOnly : Option Exc) : Bool → List (Nat × Nat) → Res (List XPart)
  | _, [] => .ok [] s
  | part2, (va, n) :: rest =>
    match s.checkPart i m memOnly part2 va n with
    | .exc x s => .exc x s
    | .ok p s =>
      match s.checkParts i m memOnly true rest with
      | .exc x s => .exc x s
      | .ok ps s => .ok (p :: ps) s

/-- R265: the walker may write what the parts ask for: each A and D update passes the Screen. -/
def State.adCheck (s : State) (i : Nat) (m : Mode) : List XPart → Res Unit
  | [] => .ok () s
  | p :: ps =>
    match p.leaf with
    | none => s.adCheck i m ps
    | some (src, old, new) =>
      if old = new then s.adCheck i m ps
      else
        let c := s.screenCheck (Who.core (i / 8) false) src .store false
        if ¬ c.1.ok then c.2.fail vScreen p.va (walkDenied c.1 m p.second) else c.2.adCheck i m ps

/-- R263, R265: the compare-and-swap of a part's leaf, ordered with the stores to the entry, and the leaf's entry in the TLBs;
the answer is false where the entry no longer holds the value read. -/
def State.adSet (s : State) (i : Nat) (p : XPart) : Bool × State :=
  match p.leaf with
  | none => (true, s)
  | some (src, old, new) =>
    let e : TlbEntry := { space := (s.stall i).space, va := BitVec.ofNat 64 (p.va - p.va % 2 ^ pteSize new), leaf := new,
                          src := BitVec.ofNat 44 src }
    if old = new then (true, s.tlbPut i e)
    else
      let s := s.settle i src 8
      if s.readMem src 8 = toBytes 8 old.toNat then (true, (s.writeTarget (.atL2 0) src (toBytes 8 new.toNat) []).tlbPut i e) else (false, s)

/-- R264: the A and D updates of an access, after every check and before it is performed; false: an entry has changed since it
was read, and the walk is to be repeated. -/
def State.setAds (s : State) (i : Nat) (m : Mode) (ps : List XPart) : Res Bool :=
  (s.adCheck i m ps).bind (fun _ s =>
    let r := ps.foldl (fun (acc : Bool × State) p => if acc.1 then acc.2.adSet i p else acc) (true, s)
    .ok r.1 r.2)

/-- R182, R263, R264: parts are translated and checked, then A and D are set, and all of it again where an entry has changed
meanwhile: another stall's store, which is then performed, or the access's own first part. `noRegs` is the exception of an
access that may not lie in register space. -/
def State.prepareWith (s : State) (i : Nat) (m : Mode) (memOnly noRegs : Option Exc) (l : List (Nat × Nat)) : Nat → Res (List XPart)
  | 0 => s.checkParts i m memOnly false l
  | fuel + 1 =>
    match s.checkParts i m memOnly false l with
    | .exc x s => .exc x s
    | .ok ps s =>
      match if ps.any (fun p => s.target p.pa == .regs) then noRegs else none with
      | some x => .exc x s
      | none =>
        match s.setAds i m ps with
        | .exc x s => .exc x s
        | .ok true s => .ok ps s
        | .ok false s => s.drainAll.prepareWith i m memOnly noRegs l fuel

/-- R182, R264: every part of n bytes at a cursor is translated and checked, then A and D are set. -/
def State.prepare (s : State) (i : Nat) (m : Mode) (memOnly : Option Exc) (va n : Nat) : Res (List XPart) :=
  s.prepareWith i m memOnly none (transfer va n) 3

end Sys2Proof.Machine
end

