-- ==== Sys2Proof/Machine/Access.lean ====
section
/-!
DEFINITION. Sys2Proof/Machine/Access.lean: how the accesses of a context are performed once they are checked: store
buffers and their order (R221, R222), register space (R5, R24, R599), targets and MACHINE_CHECK (R29, R308), and the
Sacristy core's own address map (R202, R455).
-/
namespace Sys2Proof.Machine

/-! ## Register space (R5, R24, R222, R599) -/

/-- R599: the island in which a register block answers. -/
def islandOf (pa : Nat) : Island :=
  if 0x30000000 ≤ pa then .sacristy
  else
    let k := (pa - 0x20000000) / 0x10000
    if 0x08 ≤ k ∧ k < 0x0C then .lanePair (Fin.ofNat 2 (k % 2))
    else if 0x10 ≤ k ∧ k < 0x14 then .tenant
    else match k with
      | 0x0C => .ringSwitch
      | 0x18 => .cipher
      | 0x20 => .clerestory
      | 0x28 => .timers
      | 0x29 => .sacristy
      | 0x30 => .lsio
      | 0x38 => .lsio
      | _ => .l2

/-- R222: the earlier accesses of a stall to register space are performed: their answers have crossed back. -/
def State.answered (s : State) (i : Nat) : State :=
  { s with events := { s.events with crossings := s.events.crossings.filter (fun x => x.1 ≠ i) } }

/-- The answer of a block sets out for a stall (R222). -/
def State.answering (s : State) (i pa : Nat) : State :=
  { s with events := { s.events with crossings := s.events.crossings ++ [(i, islandOf pa)] } }

/-- R222: a register access begins after every earlier access of the stall is performed, stores included. -/
def State.beginReg (s : State) (i : Nat) : State := (s.drain i).answered i

/-- What a register block is told of a core's access. -/
def State.coreReq (s : State) (i : Nat) (m : Mode) : Req := { cls := if m.user then 0 else 1, enc := s.enclosed i }

/-- R5, R29: the MACHINE_CHECK kind that n bytes at a Nave address meet before they are performed; `whole`: they are the whole of
their access, since register space takes no part of a split one (R5, R185). -/
def State.gateAt (s : State) (whole : Bool) (pa n : Nat) : Option Nat :=
  match s.target pa with
  | .none => some 1
  | .regs =>
    if ¬ whole then some 0
    else match s.busGate pa n with
      | .bad => some 0
      | .hole => some 1
      | _ => none
  | _ => none

/-- R92: n bytes at a Nave address lie in a register block whose island holds its handshakes. -/
def State.heldAt (s : State) (pa : Nat) : Bool := s.target pa == .regs && s.holds92 (islandOf pa)

/-- R183, R234: the first part that ends in a MACHINE_CHECK known beforehand. -/
def State.gatesOf (s : State) (m : Mode) (whole : Bool) : List XPart → Option Exc
  | [] => none
  | p :: ps =>
    match s.gateAt whole p.pa p.n with
    | some k => some (excOf vMachine p.va (m.machine k))
    | none => s.gatesOf m whole ps

/-- R92, R183, R234: what keeps the parts of an access from being performed. -/
def State.gates (s : State) (m : Mode) (ps : List XPart) : Option Exc :=
  match s.gatesOf m (ps.length == 1) ps with
  | some x => some x
  | none => if ps.any (fun p => s.heldAt p.pa) then some (excOf vHold 0 0) else none

/-! ## Loads of the Nave cores -/

/-- A read of a target, as a core's access. -/
def State.coreTarget (s : State) (i : Nat) (m : Mode) (p : XPart) : Res (List Byte × Bool) :=
  let r := s.readTarget { Use.data (i / 8) p.attr with fetch := m.kind == .fetch } p.pa p.n
  match r.1 with
  | .ok bs => .ok (bs, (r.2.target p.pa).isMem && r.2.tagAt p.pa) r.2
  | .error k => r.2.fail vMachine p.va (m.machine k)

/-- R304: the buffered stores of a stall, those that are merged together. -/
def mergedStores (l : List BufStore) : List (List BufStore) :=
  l.foldr (fun b gs => match gs with
    | (c :: g) :: more => if c.merged then (b :: c :: g) :: more else [b] :: (c :: g) :: more
    | gs => [b] :: gs) []

/-- R221: the byte that merged stores hold for an address: the youngest one's. -/
def storedByte (g : List BufStore) (a : Nat) : Option Byte :=
  (g.reverse.find? (fun b => decide (b.pa.toNat ≤ a ∧ a < b.pa.toNat + b.data.length))).bind (fun b => b.data[a - b.pa.toNat]?)

/-- R221: the bytes that merged stores give a load that they overlap wholly. -/
def forwarded (g : List BufStore) (pa n : Nat) : Option (List Byte) := (List.range n).mapM (fun k => storedByte g (pa + k))

/-- R221, R125: the tag that they give it. -/
def forwardedTag (g : List BufStore) (pa n : Nat) : Bool :=
  match (g.filter (fun b => shares b.pa.toNat b.data.length pa n)).getLast? with
  | some b => b.tag && b.pa.toNat == pa && n == 16
  | none => false

/-- R221: a load from Close SRAM or DRAM, forwarded from the stall's own buffer where a buffered store holds all of it. -/
def State.coreMemLoad (s : State) (i : Nat) (m : Mode) (p : XPart) : Res (List Byte × Bool) :=
  let s := s.settleOthers i p.pa p.n
  match ((mergedStores (s.stall i).sbuf).filter (fun g => g.any (fun b => shares b.pa.toNat b.data.length p.pa p.n))).getLast? with
  | some g =>
    match forwarded g p.pa p.n with
    | some bs => .ok (bs, forwardedTag g p.pa p.n) s
    | none => (s.drain i).coreTarget i m p
  | none => s.coreTarget i m p

/-- R304: the attribute orders as register space does. -/
def deviceAttr (a : BitVec 3) : Bool := decide (3 ≤ a.toNat)

/-- A load of one part; one whose attribute orders as register space waits for the earlier accesses of its stall (R222, R304). -/
def State.coreLoadPart (s : State) (i : Nat) (m : Mode) (p : XPart) : Res (List Byte × Bool) :=
  match s.target p.pa with
  | .regs =>
    let s := s.beginReg i
    let r := s.regRead (s.coreReq i m) p.pa p.n
    .ok (toBytes p.n r.2.1.toNat, false) (r.2.2.answering i p.pa)
  | .sram | .dram => if deviceAttr p.attr then (s.beginReg i).coreTarget i m p else s.coreMemLoad i m p
  | _ => s.coreTarget i m p

/-- The parts of a load, in order. -/
def State.coreLoadParts (s : State) (i : Nat) (m : Mode) : List XPart → Res (List Byte × Bool)
  | [] => .ok ([], false) s
  | p :: ps =>
    match s.coreLoadPart i m p with
    | .exc x s => .exc x s
    | .ok a s =>
      match s.coreLoadParts i m ps with
      | .exc x s => .exc x s
      | .ok b s => .ok (a.1 ++ b.1, a.2 || b.2) s

/-- A load that has passed its checks: its bytes, and the tag of its granule. -/
def State.coreLoad (s : State) (i : Nat) (m : Mode) (ps : List XPart) : Res (List Byte × Bool) :=
  match s.gates m ps with
  | some x => .exc x s
  | none => s.coreLoadParts i m ps

/-! ## Stores of the Nave cores -/

/-- R125: the tags that a store gives the granules it covers whole. -/
def storeTags (tag : Bool) : List Bool := if tag then [true] else []

/-- R304: a normal store merges with the youngest buffered store where both are normal and lie in one line; R221 keeps it from
merging with an older one. -/
def mergesWith (l : List BufStore) (pa : Nat) (attr : BitVec 3) : Bool :=
  l.getLast?.any (fun b => b.attr == 0 && attr == 0 && b.pa.toNat / 64 == pa / 64)

/-- A store of one part. Where R187 makes an access atomic only byte by byte or doubleword by doubleword it may tear; the model
performs each part whole, and a buffered store becomes visible whole (DESIGN CHOICE, log 44). -/
def State.coreStorePart (s : State) (i : Nat) (m : Mode) (p : XPart) (bs : List Byte) (tag : Bool) : State :=
  match s.target p.pa with
  | .regs =>
    let s := s.beginReg i
    let r := s.regWrite (s.coreReq i m) p.pa p.n (BitVec.ofNat 64 (ofBytes bs))
    r.2.answering i p.pa
  | .sram | .dram =>
    if deviceAttr p.attr then (s.beginReg i).writeTarget (.data (i / 8) p.attr) p.pa bs (storeTags tag)
    else
      let b : BufStore := { pa := BitVec.ofNat 44 p.pa, data := bs, tag := tag, attr := p.attr,
                            merged := mergesWith (s.stall i).sbuf p.pa p.attr }
      s.modStall i (fun t => { t with sbuf := t.sbuf ++ [b] })
  | _ => (s.drain i).writeTarget .dma p.pa bs []

/-- The parts of a store, in order. -/
def State.coreStoreParts (s : State) (i : Nat) (m : Mode) (tag : Bool) : List Byte → List XPart → State
  | _, [] => s
  | bs, p :: ps => (s.coreStorePart i m p (bs.take p.n) tag).coreStoreParts i m tag (bs.drop p.n) ps

/-- A store that has passed its checks. -/
def State.coreStore (s : State) (i : Nat) (m : Mode) (ps : List XPart) (bs : List Byte) (tag : Bool) : Res Unit :=
  match s.gates m ps with
  | some x => .exc x s
  | none => .ok () (s.coreStoreParts i m tag bs ps)

/-! ## The Sacristy core (R202, R455) -/

/-- What lies at an address of the Sacristy's map. -/
inductive SacTgt where
  | rom | ram
  | flash (aisle off : Nat)
  | window (off : Nat)
  | bells (off : Nat)
  | regs
  | nave (pa : Nat)
  | none
deriving DecidableEq, Repr

/-- R455: the target of a Sacristy address. -/
def State.sacTarget (s : State) (a : Nat) : SacTgt :=
  if a < 0x10000 then .rom
  else if 0x100000 ≤ a ∧ a < 0x140000 then .ram
  else if 0x1000000 ≤ a ∧ a < 0x1800000 then .flash 0 (a - 0x1000000)
  else if 0x1800000 ≤ a ∧ a < 0x2000000 then .flash 1 (a - 0x1800000)
  else if 0x2000000 ≤ a ∧ a < 0x2010000 then .window (a - 0x2000000)
  else if 0x2010000 ≤ a ∧ a < 0x2010800 then .bells (a - 0x2010000)
  else if 0x3000000 ≤ a ∧ a < 0x3100000 then .regs
  else if 2 ^ 44 ≤ a ∧ a < 2 ^ 45 ∧ (s.power.navePhase = .base ∨ s.power.navePhase = .running) then .nave (a - 2 ^ 44)
  else .none

/-- R128: Sacristy RAM, or Nave memory over the bridge, takes a tagged store without a fault. -/
def State.sacTagged (s : State) (a : Nat) : Bool :=
  match s.sacTarget a with
  | .ram => true
  | .nave pa => (s.target pa).isMem
  | _ => false

/-- R5, R29, R297, R455: the MACHINE_CHECK kind that a part meets before it is performed; an access to Nave space that the Screen
refuses meets none. -/
def State.sacGate (s : State) (k : AccKind) (whole : Bool) (a n : Nat) : Option Nat :=
  match s.sacTarget a with
  | .none => some 1
  | .bells _ | .regs => if whole && regSized a n then none else some 0
  | .nave pa => if (s.screenCheck (Who.dev 6) pa k false).1.ok then s.gateAt whole pa n else none
  | _ => none

/-- R92: a part of the Sacristy core's access waits for an island of the Nave die. -/
def State.sacHeld (s : State) (a : Nat) : Bool :=
  match s.sacTarget a with
  | .nave pa => s.heldAt pa
  | _ => false

/-- The first part that ends in a MACHINE_CHECK known beforehand. -/
def State.sacGatesOf (s : State) (m : Mode) (whole : Bool) : List (Nat × Nat) → Option Exc
  | [] => none
  | (a, n) :: ps =>
    match s.sacGate m.kind whole a n with
    | some k => some (excOf vMachine a (m.machine k))
    | none => s.sacGatesOf m whole ps

/-- R5, R92, R455: what keeps the parts of an access of the Sacristy core from being performed. -/
def State.sacGates (s : State) (m : Mode) (ps : List (Nat × Nat)) : Option Exc :=
  match s.sacGatesOf m (ps.length == 1) ps with
  | some x => some x
  | none => if ps.any (fun p => s.sacHeld p.1) then some (excOf vHold 0 0) else none

/-- The registers of the two flash controllers; other offsets of the Sacristy's peripherals are reserved (R12). -/
def State.sacRegView (s : State) (a : Nat) : W32 :=
  if 0x3010000 ≤ a ∧ a < 0x3012000 then s.flView ((a - 0x3010000) / 0x1000) (a % 0x1000) else 0

/-- A 32-bit read of a Sacristy register (R6). -/
def State.sacReg4 (s : State) (a : Nat) : W32 × State :=
  let k := sacSpace + a
  if isPairLow k then (s.sacRegView a, { s with latches := AMap.set s.latches k (s.sacRegView (a + 4)) })
  else if isPairLow (k - 4) then ((AMap.get? s.latches (k - 4)).getD 0, s)
  else (s.sacRegView a, s)

/-- A read of 4 or 8 bytes of the Sacristy's registers. -/
def State.sacRegRead (s : State) (a n : Nat) : W64 × State :=
  if n = 4 then
    let x := s.sacReg4 a
    (x.1.zeroExtend 64, x.2)
  else if isPairLow (sacSpace + a) then (s.sacRegView (a + 4) ++ s.sacRegView a, s)
  else
    let x := s.sacReg4 a
    let y := x.2.sacReg4 (a + 4)
    (y.1 ++ x.1, y.2)

/-- A 32-bit write of a Sacristy register; its pairs are read-only. -/
def State.sacRegPut (s : State) (a : Nat) (d : W32) : State :=
  if 0x3010000 ≤ a ∧ a < 0x3012000 ∧ ¬ isPairLow (sacSpace + a) ∧ ¬ isPairLow (sacSpace + a - 4) then
    s.flWrite ((a - 0x3010000) / 0x1000) (a % 0x1000) d
  else s

/-- R470, R471: a write of a doorbell word by the Sacristy core: bit [9] of a Nave-to-Sacristy bell word frees the slot;
a Sacristy-to-Nave slot takes its words while EMPTY, and bit [8] of its bell word fills it (log 26). -/
def State.sacBell (s : State) (off : Nat) (d : W32) : State :=
  let k := off % 0x400 / 64
  if off < 0x400 then (if off % 64 = 60 ∧ bit d 9 then s.freeTx k else s)
  else if (s.rxSlot k).full then s
  else if off % 64 < 60 then
    { s with hatch := { s.hatch with rx := vmod s.hatch.rx k (fun h => { h with words := vset h.words (off % 64 / 4) d }) } }
  else if bit d 8 then s.postRx k (s.rxSlot k)
  else s

/-- R455, R530: a read of n bytes of the Sacristy's RAM meets the errors of its granules: one that SECDED cannot correct leaves its
granule poisoned with tag 0, and a record; the answer says whether the read meets poison. -/
def State.sacRamErrors (s : State) (a n : Nat) : Bool × State :=
  let units := (List.range ((a + n + 15) / 16 - a / 16)).map (fun k => (sacSpace + a) / 16 + k)
  let s := (s.mem.latent.filter (fun p => units.contains p.1)).foldl (fun s p =>
    let s := s.dropLatent p
    if ¬ p.2.ue then s
    else (({ s with mem := { s.mem with poisonGranules := insertNat s.mem.poisonGranules p.1 } }).setTag (16 * p.1) false).log
      .memUncorrectable 3) s
  (units.any (fun k => s.mem.poisonGranules.contains k), s)

/-- R455, R309: a write of n bytes of the Sacristy's RAM leaves no error in the granules that it covers whole. -/
def State.sacRamClear (s : State) (a n : Nat) : State :=
  let stays := fun (k : Nat) => !decide (sacSpace + a ≤ 16 * k ∧ 16 * k + 16 ≤ sacSpace + a + n)
  { s with mem := { s.mem with poisonGranules := s.mem.poisonGranules.filter stays
                               latent := s.mem.latent.filter (fun p => stays p.1) } }

/-- A read of one part by the Sacristy core. -/
def State.sacLoadPart (s : State) (m : Mode) (a n : Nat) : Res (List Byte × Bool) :=
  match s.sacTarget a with
  | .rom => .ok ((List.range n).map (fun k => Config.sacRom (a + k)), false) s
  | .ram =>
    let r := s.sacRamErrors a n
    if r.1 then r.2.fail vMachine a (m.machine 3) else .ok (r.2.readMem (sacSpace + a) n, r.2.tagAt (sacSpace + a)) r.2
  | .flash k off =>
    let r := s.flashRead k off n
    match r.1 with
    | some bs => .ok (bs, false) r.2
    | none => r.2.fail vMachine a (m.machine 3)
  | .window off => .ok (s.readMem (aWindow + off) n, false) s
  | .bells off =>
    .ok (toBytes n ((s.bellView off).toNat + (if n = 8 then (s.bellView (off + 4)).toNat * 2 ^ 32 else 0)), false) s
  | .regs =>
    let r := s.sacRegRead a n
    .ok (toBytes n r.1.toNat, false) r.2
  | .nave pa =>
    let c := s.screenCheck (Who.dev 6) pa .load false
    if ¬ c.1.ok then .ok (List.replicate n 0, false) c.2
    else match c.2.target pa with
      | .regs =>
        let r := c.2.regRead { cls := 6, enc := false } pa n
        .ok (toBytes n r.2.1.toNat, false) r.2.2
      | _ =>
        let r := c.2.readTarget .dma pa n
        match r.1 with
        | .ok bs => .ok (bs, false) r.2
        | .error k => r.2.fail vMachine a (m.machine k)
  | .none => s.fail vMachine a (m.machine 1)

/-- The parts of a load by the Sacristy core. -/
def State.sacLoadParts (s : State) (m : Mode) : List (Nat × Nat) → Res (List Byte × Bool)
  | [] => .ok ([], false) s
  | (a, n) :: ps =>
    match s.sacLoadPart m a n with
    | .exc x s => .exc x s
    | .ok x s =>
      match s.sacLoadParts m ps with
      | .exc x s => .exc x s
      | .ok y s => .ok (x.1 ++ y.1, x.2 || y.2) s

/-- R125: a write of one part by the Sacristy core; Nave memory takes it with tags 0. -/
def State.sacStorePart (s : State) (a : Nat) (bs : List Byte) (tag : Bool) : State :=
  match s.sacTarget a with
  | .ram =>
    let s := (((s.sacRamClear a bs.length).writeMem (sacSpace + a) bs).clearTags (sacSpace + a) bs.length)
    if tag then s.setTag (sacSpace + a) true else s
  | .window off => s.writeMem (aWindow + off) bs
  | .bells off =>
    let s := s.sacBell off (BitVec.ofNat 32 (leField bs 0 4))
    if bs.length = 8 then s.sacBell (off + 4) (BitVec.ofNat 32 (leField bs 4 4)) else s
  | .regs =>
    let s := s.sacRegPut a (BitVec.ofNat 32 (leField bs 0 4))
    if bs.length = 8 then s.sacRegPut (a + 4) (BitVec.ofNat 32 (leField bs 4 4)) else s
  | .nave pa =>
    let c := s.screenCheck (Who.dev 6) pa .store false
    if ¬ c.1.ok then c.2
    else match c.2.target pa with
      | .regs => (c.2.regWrite { cls := 6, enc := false } pa bs.length (BitVec.ofNat 64 (ofBytes bs))).2
      | _ => c.2.writeTarget .dma pa bs []
  | .rom | .flash _ _ | .none => s

/-- The parts of a store by the Sacristy core. -/
def State.sacStoreParts (s : State) (tag : Bool) : List Byte → List (Nat × Nat) → State
  | _, [] => s
  | bs, (a, n) :: ps => (s.sacStorePart a (bs.take n) tag).sacStoreParts tag (bs.drop n) ps

/-! ## Both profiles -/

/-- R182, R202: a load of n bytes at a local address that has passed its capability checks. -/
def State.loadAt (s : State) (i : Nat) (m : Mode) (ea n : Nat) : Res (List Byte × Bool) :=
  if i = 32 then
    match s.sacGates m (transfer ea n) with
    | some x => .exc x s
    | none => s.sacLoadParts m (transfer ea n)
  else (s.prepare i m none ea n).bind (fun ps s => s.coreLoad i m ps)

/-- R182, R202: a store of bytes at a local address that has passed its capability checks; `memOnly` is the exception of
a tagged value where there is no tag storage. -/
def State.storeAt (s : State) (i : Nat) (m : Mode) (memOnly : Option Exc) (ea : Nat) (bs : List Byte) (tag : Bool) : Res Unit :=
  if i = 32 then
    match memOnly, s.sacTagged ea with
    | some x, false => .exc x s
    | _, _ =>
      match s.sacGates m (transfer ea bs.length) with
      | some x => .exc x s
      | none => .ok () (s.sacStoreParts tag bs (transfer ea bs.length))
  else (s.prepare i m memOnly ea bs.length).bind (fun ps s => s.coreStore i m ps bs tag)

end Sys2Proof.Machine
end

