-- ==== Sys2Proof/Machine/Operands.lean ====
section
/-!
DEFINITION. Sys2Proof/Machine/Operands.lean: the instruction formats (R175), immediates (R179) and the instruction words
that a frame's INSN records (R241).
-/
namespace Sys2Proof.Machine

/-- R175: format A. -/
def encA (op : Nat) (d a b : Reg) (fn : Nat) : W32 :=
  BitVec.ofNat 32 (op * 2 ^ 26 + d.toNat * 2 ^ 21 + a.toNat * 2 ^ 16 + b.toNat * 2 ^ 11 + fn)
/-- R175: format I. -/
def encI (op : Nat) (d a : Reg) (imm : BitVec 16) : W32 :=
  BitVec.ofNat 32 (op * 2 ^ 26 + d.toNat * 2 ^ 21 + a.toNat * 2 ^ 16 + imm.toNat)
/-- R175: format B. -/
def encB (op : Nat) (a b : Reg) (cond : Nat) (off : BitVec 13) : W32 :=
  BitVec.ofNat 32 (op * 2 ^ 26 + a.toNat * 2 ^ 21 + b.toNat * 2 ^ 16 + cond * 2 ^ 13 + off.toNat)
/-- R175: format L. -/
def encL (op : Nat) (d : Reg) (imm : BitVec 21) : W32 :=
  BitVec.ofNat 32 (op * 2 ^ 26 + d.toNat * 2 ^ 21 + imm.toNat)

/-- R179: IMM of format I, sign-extended. -/
def imm16 (imm : BitVec 16) : W64 := imm.signExtend 64
/-- R179: IMM of format L as a distance in instructions. -/
def imm21x4 (imm : BitVec 21) : W64 := imm.signExtend 64 * 4
/-- R179: OFF of format B as a distance in instructions. -/
def off13x4 (off : BitVec 13) : W64 := off.signExtend 64 * 4

/-- The FN field of an indexed load or store (R192). -/
def idxFn (index : Nat) (s : BitVec 2) (u : Bool) (hi : BitVec 4) : Nat :=
  index + s.toNat * 16 + u.toNat * 64 + hi.toNat * 128

/-- R178: the integer that a register holds. -/
def State.rdInt (s : State) (i : Nat) (r : Reg) : W64 := Cap.int (s.rd i r)

end Sys2Proof.Machine

namespace Sys2Proof
open Machine

/-- The word of a load or store of the table of R191: OP 0x10 plus the index, or OP 0x1F (R192). -/
def MemForm.insn (m : MemForm) (index : Nat) (d a : Reg) : W32 :=
  match m with
  | .off imm => encI (0x10 + index) d a imm
  | .idx b s u hi => encA 0x1F d a b (idxFn index s u hi)

end Sys2Proof
end

