-- ==== Sys2Proof/Machine/Traps.lean ====
section
/-!
DEFINITION. Sys2Proof/Machine/Traps.lean: taking an exception (R232 to R246), lockdown (R239), interrupts (R249), the
fetch of an instruction (R181), the order at an instruction boundary (R248), RETX (R247) and TRAP (R230).
-/
namespace Sys2Proof.Machine

/-! ## Causes (R235, R242, R243) -/

/-- R235: the mask level of an exception. -/
def excLevel (v : Nat) : Nat :=
  if 7 ≤ v ∧ v ≤ 11 then 3
  else match v with
    | 13 => 5
    | 19 => 2
    | 20 => 1
    | 21 => 6
    | 63 => 7
    | _ => 4

/-- R242: CAUSE. -/
def causeWord (vec orig n level : Nat) : Nat := vec % 64 + orig % 64 * 256 + n % 4096 * 65536 + level % 8 * 0x10000000

/-- R243: DETAIL of a capability fault: the operand's specifier, PCC or a stored value, the access (3: none), a special
register. -/
def capDetail (spec : Nat) (pccOrValue : Bool) (acc : Nat) (special : Bool) : Nat :=
  spec + pccOrValue.toNat * 32 + acc * 64 + special.toNat * 512

/-- R236, R456: the address of a vector's handler. -/
def vectorAddr (i v : Nat) : W64 := BitVec.ofNat 64 ((if i = 32 then 0x13F800 else 0xFFFFFFFFF000) + 32 * v)

/-! ## Lockdown (R239) -/

/-- R239: a stall enters LOCKDOWN; the Sacristy records it and, for an enclosed stall, takes the lamp (R530). -/
def State.lockdown (s : State) (i vec reason : Nat) : State :=
  let s := s.modStall i (fun t => { t with state := .lockdown, stepping := false })
  if i = 32 then s
  else
    let encl := s.enclosed i
    let s := s.orReg aLkdStatus (BitVec.ofNat 32 (2 ^ i))
    let s := s.setReg (aLkdRec i) (BitVec.ofNat 32 (vec + reason * 256 + encl.toNat * 1024))
    (if encl then s.raiseCause 15 .naveLockdown 3 else s.log .naveLockdown 2 i).sacEvent 6

/-! ## The frame (R240, R241) -/

/-- R241: the bytes of a frame. -/
def frameBytes (t : Stall) (x : Exc) (cause level : Nat) : List Byte :=
  toBytes 16 t.pcc.bits.toNat ++ toBytes 16 (vget t.s 7 Cap.null).bits.toNat ++ toBytes 8 x.faddr.toNat ++
    toBytes 4 cause ++ toBytes 4 x.insn.toNat ++ toBytes 4 t.sr.toNat ++
    [BitVec.ofNat 8 t.wptr, BitVec.ofNat 8 t.live, BitVec.ofNat 8 level, 1] ++ toBytes 8 x.detail.toNat

/-- R244 step 1: the capability checks of TSBR. -/
def tsbOk (c : Capv) : Bool :=
  c.tag && decide (Cap.kind c = 0) && Cap.has c permLoad && Cap.has c permStore && Cap.has c permLoadCap &&
    Cap.has c permStoreCap && decide ((Cap.addr c).toNat % 64 = 0) && Cap.inBounds c (Cap.addr c).toNat 256

/-- R244 step 2: the frame is in memory; the registers change together. -/
def Stall.enterAt (t : Stall) (i vec level : Nat) (hcc : Capv) : Stall :=
  { t with s := vset t.s 7 t.tsbr, pcc := Cap.setAddr hcc (vectorAddr i vec),
           sr := putBit (putBits t.sr 2 0 level) 3 true }

/-- A value of 16 bytes and its tag. -/
def capOfBytes (bs : List Byte) (tag : Bool) : Capv := ⟨BitVec.ofNat 128 (ofBytes bs), tag⟩

/-- R244 step 1, R245: both accesses of entry are translated and checked, and the walker's own writes with them, before A or D is
set for either. -/
def State.tsbChecks (s : State) (i frame a : Nat) (no : Option Exc) : Res Unit :=
  (s.checkParts i (tsbMode .store) no false [(a + frame * 64, 64)]).bind (fun fs s =>
    (s.checkParts i (tsbMode .load) no false [(a + 0x80, 16)]).bind (fun hs s =>
      (s.adCheck i (tsbMode .store) fs).bind (fun _ s => s.adCheck i (tsbMode .load) hs)))

/-- R244, R245 for a Nave stall: the two accesses of entry are checked, then the frame is written and HCC loaded; none: a
check failed. -/
def State.tsbNave (s : State) (i frame : Nat) (bs : List Byte) (tags : List Bool) : Option Capv × State :=
  let a := (Cap.addr (s.stall i).tsbr).toNat
  let no : Option Exc := some (excOf vPerm a 0)
  match s.tsbChecks i frame a no with
  | .exc _ s => (none, s)
  | .ok _ s =>
    match s.prepare i (tsbMode .store) no (a + frame * 64) 64 with
    | .exc _ s => (none, s)
    | .ok fs s =>
    match s.prepare i (tsbMode .load) no (a + 0x80) 16 with
    | .exc _ s => (none, s)
    | .ok hs s =>
      match fs, hs with
      | [f], [h] =>
        let s := (s.settle i h.pa 16).settle i f.pa 64
        let r := s.readTarget (.data (i / 8) h.attr) h.pa 16
        match r.1 with
        | .error _ => (none, r.2)
        | .ok hb => (some (capOfBytes hb (r.2.tagAt h.pa)), r.2.writeTarget (.data (i / 8) f.attr) f.pa bs tags)
      | _, _ => (none, s)

/-- R244, R254 for the Sacristy core: the block lies in Sacristy RAM. -/
def State.tsbSac (s : State) (frame : Nat) (bs : List Byte) (tags : List Bool) : Option Capv × State :=
  let a := (Cap.addr (s.stall 32).tsbr).toNat
  if s.sacTarget a ≠ .ram ∨ s.sacTarget (a + 255) ≠ .ram then (none, s)
  else
    let k := sacSpace + a
    let e := s.sacRamErrors (a + 0x80) 16
    let s := e.2
    let hcc := capOfBytes (s.readMem (k + 0x80) 16) (s.tagAt (k + 0x80))
    if e.1 then (none, s) else (some hcc, (((s.sacRamClear (a + frame * 64) 64).writeMem (k + frame * 64) bs).clearTags (k + frame * 64) 64).putTags (k + frame * 64) tags)

/-- R244, R245: an exception is taken at a vector and a level; `raised` is the level as raised, `orig` the vector of the
exception that escalated. -/
def State.enter (s : State) (i : Nat) (x : Exc) (vec level orig raised : Nat) : State :=
  let t := s.stall i
  if ¬ tsbOk t.tsbr then s.lockdown i x.vec 1
  else
    let bs := frameBytes t x (causeWord vec orig x.n raised) level
    let tags := [t.pcc.tag, (vget t.s 7 Cap.null).tag, false, false]
    let frame := if vec = vEscalate then 1 else 0
    let r := if i = 32 then s.tsbSac frame bs tags else s.tsbNave i frame bs tags
    match r.1 with
    | none => r.2.lockdown i x.vec 1
    | some hcc => r.2.modStall i (fun t => t.enterAt i vec level hcc)

/-- R237: the current state masks a level. -/
def masks (sr : W32) (level : Nat) : Bool := bit sr 3 || decide (level ≤ bits sr 2 0)

/-- R154, R238: a synchronous exception: taken, escalated, or the end of the stall. -/
def State.except (s : State) (i : Nat) (x : Exc) : State :=
  let t := s.stall i
  if s.enclosed i ∧ x.vec = vNest then s.lockdown i x.vec 2
  else if ¬ masks t.sr (excLevel x.vec) then s.enter i x x.vec (excLevel x.vec) 0 (excLevel x.vec)
  else if bits t.sr 2 0 < 7 then s.enter i x vEscalate 7 x.vec (excLevel x.vec)
  else s.lockdown i x.vec 0

/-! ## Interrupts (R249) -/

/-- R248: the interrupt that is due: the highest level, then the lowest number. -/
def State.intDue (s : State) (i : Nat) : Option (Nat × Nat) :=
  if 32 ≤ i then none
  else
    let f := fun (b : Option (Nat × Nat)) (n : Nat) =>
      if s.deliverable i n then
        match b with
        | some (m, l) => if l < s.field (aMode n) 6 4 then some (n, s.field (aMode n) 6 4) else some (m, l)
        | none => some (n, s.field (aMode n) 6 4)
      else b
    (List.range 55).foldl f none

/-! ## An instruction boundary (R248) -/

/-- A context is running on a core that issues: one that is in service, that no GRANT.FENCE holds, and whose clock does not relock
(R92). -/
def State.running (s : State) (i : Nat) : Bool :=
  (s.stall i).state == .running &&
    (i == 32 || (s.naveRuns && !s.coreOut (i / 8) && (s.core (i / 8)).fence.isNone && !s.holds92 (.core (Fin.ofNat 4 (i / 8)))))

/-- R248: the next instruction of a context is what comes next: no far outcome and no interrupt is due. -/
def State.canIssue (s : State) (i : Nat) : Bool := s.running i && (s.stall i).outcome.isNone && (s.intDue i).isNone

/-- R591: the end of a step: the stall halts with cause 2 now, or when its access or its WAIT completes. -/
def State.stepEnd (s : State) (i : Nat) : State :=
  let t := s.stall i
  if ¬ t.stepping then s
  else match t.state with
    | .running | .ready | .far | .miss => s.haltStall i 2
    | .waiting => s
    | _ => s.modStall i (fun t => { t with stepping := false })

/-- An instruction of a context has issued: the boundary after it. -/
def State.boundary (s : State) (i : Nat) : State :=
  let s := s.modStall i (fun t => { t with bpSkip := false })
  let s := if i < 32 then s.modCore (i / 8) (fun c => { c with issued := true }) else s
  s.stepEnd i

/-- R593, R92, R238: an exception of an instruction is taken, or its breakpoint halts the stall, or it waits for an island. -/
def State.settleExc (s : State) (i : Nat) (x : Exc) : State :=
  if x.vec = vBreak then s.haltStall i 3
  else if x.vec = vHold then s
  else (s.except i x).boundary i

/-! ## Fetch (R181) -/

/-- R181 steps 1 to 4: the checks of PCC. -/
def fetchFault (pcc : Capv) : Option Exc :=
  let a := (Cap.addr pcc).toNat
  if ¬ pcc.tag then some (excOf vTag a (capDetail 0 true 2 false))
  else if Cap.kind pcc = 3 then some (excOf vNxFetch a 128)
  else if Cap.kind pcc ≠ 0 then some (excOf vKind a (capDetail 0 true 2 false))
  else if ¬ Cap.has pcc permExec then some (excOf vNxFetch a 128)
  else if a % 4 ≠ 0 ∨ ¬ Cap.inBounds pcc a 4 then some (excOf vBounds a (capDetail 0 true 2 false))
  else none

/-- The read of an instruction, which is not ordered with stores (R224). -/
def State.fetchParts (s : State) (i : Nat) (m : Mode) : List XPart → Res Unit
  | [] => .ok () s
  | p :: ps => (s.coreTarget i m p).bind (fun _ s => s.fetchParts i m ps)

/-- R181 steps 5 to 7 and the read, in a Nave stall. -/
def State.fetchNave (s : State) (i a : Nat) : Res Unit :=
  let m := (s.stall i).mode .fetch false
  (s.prepareWith i m none (some (excOf vNxFetch a 128)) [(a, 4)] 3).bind (fun ps s => s.fetchParts i m ps)

/-- The same in the Sacristy core, which has no translation and no Screen (R202). -/
def State.fetchSac (s : State) (a : Nat) : Res Unit :=
  let m := (s.stall 32).mode .fetch false
  match s.sacTarget a with
  | .regs | .bells _ | .nave _ => s.fail vNxFetch a 128
  | _ => (s.sacLoadPart m a 4).bind (fun _ s => .ok () s)

/-- R181: the fetch of the instruction at PCC. The word that it delivers is the command's operand (log 27). -/
def State.fetch (s : State) (i : Nat) : Res Unit :=
  let pcc := (s.stall i).pcc
  let a := (Cap.addr pcc).toNat
  if s.breakAt i [1] a 4 then s.fail vBreak 0 0
  else match fetchFault pcc with
    | some x => .exc x s
    | none => if i = 32 then s.fetchSac a else s.fetchNave i a

/-- R172, R250: a WAIT that suspended its stall completes when the stall next runs; while an interrupt is due, or when no
event of its mask is pending any more, it runs again instead. -/
def State.endWait (s : State) (i : Nat) : State :=
  let t := s.stall i
  match t.waitFor with
  | none => s
  | some (d, m) =>
    let got := t.evpend &&& m &&& t.evmask
    let s := s.modStall i (fun t => { t with waitFor := none })
    if (s.intDue i).isSome ∨ got = 0 then s
    else ((s.modStall i (fun t => { t.advance with evpend := t.evpend &&& ~~~ got })).wrInt i d got).stepEnd i

/-- R201, R456: the Sacristy core has one stall; once READY it runs at once. -/
def State.sacResume (s : State) (i : Nat) : State :=
  if i = 32 ∧ (s.stall 32).state = .ready then (s.modStall 32 (fun t => { t with state := .running })).endWait 32 else s

/-- R180, R232, R248: an instruction of a context: its fetch, then its body; an exception of the body records the word. -/
def issue (i : Nat) (insn : W32) (body : State → Res Unit) (s : State) : Out :=
  let s := s.sacResume i
  if ¬ s.canIssue i then .next s
  else match s.fetch i with
    | .exc x s => .next (s.settleExc i x)
    | .ok _ s =>
      match body s with
      | .exc x s => .next (s.settleExc i { x with insn := insn })
      | .ok _ s => .next (s.boundary i)

/-- The context goes on with the next instruction. -/
def State.goOn (s : State) (i : Nat) : Res Unit := .ok () (s.modStall i Stall.advance)

/-- An exception without fault address or DETAIL. -/
def State.plain {α : Type} (s : State) (vec : Nat) : Res α := s.fail vec 0 0

/-- R177, R201: an instruction that is reserved or absent in this form raises ILLEGAL. -/
def unlessIllegal (bad : Bool) (body : State → Res Unit) (s : State) : Res Unit := if bad then s.plain vIllegal else body s

/-- R180: a privileged instruction without SYS in PCC raises PRIV. -/
def privileged (i : Nat) (body : State → Res Unit) (s : State) : Res Unit :=
  if (s.stall i).userMode then s.plain vPriv else body s

/-! ## RETX (R247) and TRAP (R230) -/

/-- R150, R202: WPTR and LIVE are legal. -/
def windowsLegal (i wptr live : Nat) : Bool :=
  if i = 32 then decide (wptr ≤ 3 ∧ 1 ≤ live ∧ live ≤ 4)
  else decide (wptr ≤ 15 ∧ 1 ≤ live ∧ live ≤ 16 ∧ ((wptr + 17 - live) % 16 = 0 ∨ (wptr + 17 - live) % 16 = 8))

/-- R247: the tags of the first two granules of the frame at a local address. -/
def State.frameTags (s : State) (i : Nat) (ps : List XPart) (ea : Nat) : Bool × Bool :=
  if i = 32 then
    if s.sacTarget ea = .ram then (s.tagAt (sacSpace + ea), s.tagAt (sacSpace + ea + 16)) else (false, false)
  else match ps with
    | [p] => if (s.target p.pa).isMem then (s.tagAt p.pa, s.tagAt (p.pa + 16)) else (false, false)
    | _ => (false, false)

/-- R247: the 64 bytes of the frame and the tags of PCC and S7. -/
def State.frameLoad (s : State) (i ea : Nat) : Res (List Byte × Bool × Bool) :=
  let m := tsbMode .load
  if i = 32 then (s.loadAt 32 m ea 64).bind (fun r s => .ok (r.1, s.frameTags 32 [] ea) s)
  else (s.prepare i m none ea 64).bind (fun ps s =>
    let s := s.drain i
    (s.coreLoad i m ps).bind (fun r s => .ok (r.1, s.frameTags i ps ea) s))

/-- R247: what RETX restores. -/
def Stall.restore (t : Stall) (bs : List Byte) (tags : Bool × Bool) : Stall :=
  { t with pcc := capOfBytes (bs.take 16) tags.1, s := vset t.s 7 (capOfBytes ((bs.drop 16).take 16) tags.2),
           sr := BitVec.ofNat 32 (leField bs 0x30 4 % 64), wptr := leField bs 0x34 1, live := leField bs 0x35 1 }

/-- R247: RETX. -/
def State.retx (s : State) (i : Nat) : Res Unit :=
  let t := s.stall i
  let c := t.tsbr
  let ea := (Cap.addr c).toNat + (if bits t.sr 2 0 = 7 then 64 else 0)
  let d := capDetail 2 false 0 true
  if ¬ c.tag then s.fail vTag ea d
  else if Cap.kind c ≠ 0 then s.fail vKind ea d
  else if ¬ Cap.has c permLoad ∨ ¬ Cap.has c permLoadCap then s.fail vPerm ea d
  else if ¬ Cap.inBounds c ea 64 ∨ ea % 64 ≠ 0 then s.fail vBounds ea d
  else (s.frameLoad i ea).bind (fun r s =>
    if ¬ windowsLegal i (leField r.1 0x34 1) (leField r.1 0x35 1) then s.plain vIllegal
    else .ok () (s.modStall i (fun t => t.restore r.1 r.2)))

/-- R247: RETX. -/
def execRetx (st : Ctx) (d a b : Reg) (low : BitVec 7) (s : State) : Out :=
  issue st.val (encA 0x3D d a b (3 * 128 + low.toNat))
    (unlessIllegal (decide (d ≠ 0 ∨ a ≠ 0 ∨ b ≠ 0 ∨ low ≠ 0)) (privileged st.val (fun s => s.retx st.val))) s

/-- R230: TRAP: it completes, then its exception is taken with PCC on the next instruction. -/
def execTrap (st : Ctx) (n : BitVec 12) (d a : Reg) (s : State) : Out :=
  issue st.val (encA 0x3D d a (BitVec.ofNat 5 (n.toNat / 128)) (2 * 128 + n.toNat % 128))
    (unlessIllegal (decide (d ≠ 0 ∨ a ≠ 0)) (fun s =>
      .exc { vec := vTrap, n := n.toNat, faddr := 0, insn := 0, detail := 0 } (s.modStall st.val Stall.advance))) s

/-- R249: INTERRUPT: the deliverable event is taken and its EVPEND bit cleared. -/
def execInterrupt (st : StallId) (s : State) : Out :=
  let i := st.val
  if ¬ s.running i ∨ (s.stall i).outcome.isSome then .next s
  else match s.intDue i with
    | none => .next s
    | some (n, level) =>
      let x : Exc := { vec := vInterrupt, n := n, faddr := 0, insn := 0, detail := 0 }
      let s := s.enter i x vInterrupt level 0 level
      .next (if (s.stall i).state = .lockdown then s
             else s.modStall i (fun t => { t with evpend := putBit t.evpend n false }))

/-- R233: FAR_OUTCOME: the fault settled while the stall was in FAR is taken when it next runs. -/
def execFarOutcome (st : StallId) (s : State) : Out :=
  let i := st.val
  if ¬ s.running i then .next s
  else match (s.stall i).outcome with
    | none => .next s
    | some x => .next ((s.modStall i (fun t => { t with outcome := none })).settleExc i x)

end Sys2Proof.Machine
end

