-- ==== Sys2Proof/Machine/CapOps.lean ====
section
/-!
DEFINITION. Sys2Proof/Machine/CapOps.lean: the capability instructions of OP 0x20 to 0x22 (R118 to R121, R195).
-/
namespace Sys2Proof.Machine

/-- R243: a capability fault of operand A with no access. -/
def State.failA {α : Type} (s : State) (vec : Nat) (a : Reg) : Res α := s.fail vec 0 (capDetail a.toNat false 3 false)

/-- R195: a row that raises nothing, with one source: B must be 0. -/
def capPure (st : Ctx) (d a b : Reg) (fn : Nat) (f : Capv → Capv) (s : State) : Out :=
  issue st.val (encA 0x20 d a b fn)
    (unlessIllegal (b != 0) (fun s => (s.wr st.val d (f (s.rd st.val a))).goOn st.val)) s

/-- R195: CMOV. -/
def execCmov (st : Ctx) (d a b : Reg) (s : State) : Out := capPure st d a b 0 (fun c => c) s
/-- R195: CTAG. -/
def execCtag (st : Ctx) (d a b : Reg) (s : State) : Out := capPure st d a b 1 Cap.untag s
/-- R195, R110: the integer that CGETBASE gives. The decoded base of a value without a tag may be negative or 2^64 and above, for
which the spec states no 64-bit result: that one value is free (DESIGN CHOICE, log 45). -/
def baseInt (c : Capv) : W64 := if 0 ≤ Cap.base c ∧ Cap.base c < 2 ^ 64 then BitVec.ofInt 64 (Cap.base c) else Config.openBase c.bits
/-- R195: the integer that CGETLEN gives: top − base, with 2^64 given as 2^64 − 1; a greater length, which only a value without a
tag has, gives a free value (DESIGN CHOICE, log 45). -/
def lenInt (c : Capv) : W64 :=
  let n := Cap.t c * 2 ^ Cap.e c
  if n < 2 ^ 64 then BitVec.ofNat 64 n else if n = 2 ^ 64 then BitVec.ofNat 64 (2 ^ 64 - 1) else Config.openLen c.bits
/-- R195: CGETBASE. -/
def execCgetbase (st : Ctx) (d a b : Reg) (s : State) : Out := capPure st d a b 8 (fun c => Cap.ofInt (baseInt c)) s
/-- R195: CGETLEN. -/
def execCgetlen (st : Ctx) (d a b : Reg) (s : State) : Out := capPure st d a b 9 (fun c => Cap.ofInt (lenInt c)) s
/-- R195: CGETPERM. -/
def execCgetperm (st : Ctx) (d a b : Reg) (s : State) : Out := capPure st d a b 10 (fun c => Cap.ofInt ((Cap.perms c).zeroExtend 64)) s
/-- R195: CGETKIND. -/
def execCgetkind (st : Ctx) (d a b : Reg) (s : State) : Out := capPure st d a b 11 (fun c => Cap.ofInt (BitVec.ofNat 64 (Cap.kind c))) s
/-- R195: CGETTAG. -/
def execCgettag (st : Ctx) (d a b : Reg) (s : State) : Out := capPure st d a b 12 (fun c => Cap.ofInt (boolW c.tag)) s
/-- R195: CGETNODE. -/
def execCgetnode (st : Ctx) (d a b : Reg) (s : State) : Out := capPure st d a b 13 (fun c => Cap.ofInt ((Cap.node c).zeroExtend 64)) s

/-- R195: CEQ. -/
def execCeq (st : Ctx) (d a b : Reg) (s : State) : Out :=
  issue st.val (encA 0x20 d a b 14) (fun s => (s.wrInt st.val d (boolW (s.rd st.val a == s.rd st.val b))).goOn st.val) s

/-- R121: CDOOR. -/
def State.door (s : State) (i : Nat) (d a : Reg) : Res Unit :=
  let c := s.rd i a
  if ¬ c.tag then s.failA vTag a
  else if Cap.kind c ≠ 0 then s.failA vKind a
  else if ¬ Cap.has c permExec then s.failA vPerm a
  else if ¬ Cap.inBounds c (Cap.addr c).toNat 1 then s.failA vBounds a
  else (s.wr i d (Cap.asDoor c)).goOn i

/-- R121, R195: CDOOR. -/
def execCdoor (st : Ctx) (d a b : Reg) (s : State) : Out :=
  issue st.val (encA 0x20 d a b 2) (unlessIllegal (b != 0) (fun s => s.door st.val d a)) s

/-- R119, R195: a cursor is set in a capability of kind 0 or 3. -/
def State.setCursor (s : State) (i : Nat) (d a : Reg) (f : W64 → W64) : Res Unit :=
  let c := s.rd i a
  if ¬ c.tag then s.failA vTag a
  else if Cap.kind c ≠ 0 ∧ Cap.kind c ≠ 3 then s.failA vKind a
  else (s.wr i d (Cap.setAddr c (f (Cap.addr c)))).goOn i

/-- R119, R195: CSETADDR. -/
def execCsetaddr (st : Ctx) (d a b : Reg) (s : State) : Out :=
  issue st.val (encA 0x20 d a b 3) (fun s => s.setCursor st.val d a (fun _ => s.rdInt st.val b)) s
/-- R195: CINC. -/
def execCinc (st : Ctx) (d a b : Reg) (s : State) : Out :=
  issue st.val (encA 0x20 d a b 4) (fun s => s.setCursor st.val d a (fun x => x + s.rdInt st.val b)) s
/-- R195: CINCI. -/
def execCinci (st : Ctx) (d a : Reg) (imm : BitVec 16) (s : State) : Out :=
  issue st.val (encI 0x21 d a imm) (fun s => s.setCursor st.val d a (fun x => x + imm16 imm)) s

/-- R118, R195: bounds from the cursor over a length, in a capability of kind 0 or 3. -/
def State.setBounds (s : State) (i : Nat) (d a : Reg) (len : Nat) (exact : Bool) : Res Unit :=
  let c := s.rd i a
  let lo := (Cap.addr c).toNat
  let n := encodeBounds lo (lo + len)
  if ¬ c.tag then s.failA vTag a
  else if Cap.kind c ≠ 0 ∧ Cap.kind c ≠ 3 then s.failA vKind a
  else if ¬ Cap.has c permSetBounds then s.failA vPerm a
  else if (n.b0 : Int) < Cap.base c ∨ Cap.top c < (n.t0 : Int) then s.failA vBounds a
  else if exact ∧ (n.b0 ≠ lo ∨ n.t0 ≠ lo + len) then s.failA vBounds a
  else (s.wr i d (Cap.withBounds c n)).goOn i

/-- R118, R195: CBOUND. -/
def execCbound (st : Ctx) (d a b : Reg) (s : State) : Out :=
  issue st.val (encA 0x20 d a b 5) (fun s => s.setBounds st.val d a (s.rdInt st.val b).toNat false) s
/-- R195: CBOUNDX. -/
def execCboundx (st : Ctx) (d a b : Reg) (s : State) : Out :=
  issue st.val (encA 0x20 d a b 6) (fun s => s.setBounds st.val d a (s.rdInt st.val b).toNat true) s
/-- R195: CBOUNDI: the immediate is zero-extended. -/
def execCboundi (st : Ctx) (d a : Reg) (imm : BitVec 16) (s : State) : Out :=
  issue st.val (encI 0x22 d a imm) (fun s => s.setBounds st.val d a imm.toNat false) s

/-- R118, R195: CPERM. -/
def State.setPerms (s : State) (i : Nat) (d a b : Reg) : Res Unit :=
  let c := s.rd i a
  if ¬ c.tag then s.failA vTag a
  else if Cap.kind c ≠ 0 ∧ Cap.kind c ≠ 2 ∧ Cap.kind c ≠ 3 then s.failA vKind a
  else (s.wr i d (Cap.withPerms c (cpermPerms (Cap.perms c) ((s.rdInt i b).truncate 16)))).goOn i

/-- R118, R195: CPERM. -/
def execCperm (st : Ctx) (d a b : Reg) (s : State) : Out :=
  issue st.val (encA 0x20 d a b 7) (fun s => s.setPerms st.val d a b) s

end Sys2Proof.Machine
end

