-- ==== Sys2Proof/Machine/MemOps.lean ====
section
/-!
DEFINITION. Sys2Proof/Machine/MemOps.lean: loads and stores (R182 to R187, R191 to R194) and the issue of far
transactions (R133, R194, R223, R369).
-/
namespace Sys2Proof
open Machine

/-! ## Addresses (R191, R192) -/

/-- The effective address, exact. -/
def MemForm.ea (m : MemForm) (s : Machine.State) (i : Nat) (a : Reg) : Int :=
  ((s.rdInt i a).toNat : Int) + match m with
    | .off imm => imm.toInt
    | .idx b k _ _ => (s.rdInt i b).toInt * 2 ^ k.toNat

/-- R177, R192, R201: a form that raises ILLEGAL. -/
def MemForm.bad (m : MemForm) (i : Nat) : Bool :=
  match m with
  | .off _ => false
  | .idx _ _ u hi => hi != 0 || (u && i == 32)

/-- The user-access bit. -/
def MemForm.user (m : MemForm) : Bool :=
  match m with
  | .off _ => false
  | .idx _ _ u _ => u

end Sys2Proof

namespace Sys2Proof.Machine

/-! ## The capability steps of R182 -/

/-- R184: a capability fault of an access: the effective address and DETAIL. -/
def accExc (vec : Nat) (ea : Int) (detail : Nat) : Exc := excOf vec (BitVec.ofInt 64 ea).toNat detail

/-- R123, R182, R218: the checks of the authorising capability, in order, up to alignment. `acc` is the access of R243,
`perms` the permissions needed; `value` is a capability that is stored, with its specifier (R115). -/
def accFault (c : Capv) (spec acc : Nat) (far : Bool) (perms : List Nat) (ea : Int) (n align : Nat) (value : Option (Capv × Reg)) :
    Option Exc :=
  let f := fun (v : Nat) => some (accExc v ea (capDetail spec false acc false))
  if ¬ c.tag then f vTag
  else if Cap.kind c ≠ 0 ∧ ¬ (far ∧ Cap.kind c = 3) then f vKind
  else if perms.any (fun p => !Cap.has c p) then f vPerm
  else
    let held : Option Exc := match value with
      | some (v, r) =>
        if v.tag ∧ ¬ Cap.has c permStoreCap then f vPerm
        else if v.tag ∧ ¬ Cap.has v permGlobal ∧ Cap.has c permGlobal then some (accExc vPerm ea (capDetail r.toNat true acc false))
        else none
      | none => none
    match held with
    | some x => some x
    | none =>
      if ea < Cap.base c ∨ Cap.top c < ea + n then f vBounds
      else if ea % align ≠ 0 then f vBounds
      else none

/-! ## Far transactions at the requester (R133, R223, R369) -/

/-- R133, R223, R369: a far transaction is issued: the stores of the stall are made visible, the request leaves, and the
stall goes to FAR. -/
def State.farIssue (s : State) (i : Nat) (c : Capv) (ea n : Nat) (store : Option (List Byte)) (d : Reg) (sext : Bool) (insn : W32) :
    Res Unit :=
  let detail := (Cap.node c).toNat + (if store.isSome then 0x1000 else 0)
  if s.ring.node.isNone ∨ ¬ s.unitReady 19 then s.fail vFarTimeout ea detail
  else if s.ring.node = some (Cap.node c) then s.fail vFarRevoked ea detail
  else
    let s := s.beginReg i
    let t := s.stall i
    let op : FarOp := { phase := .sent, node := Cap.node c, ea := BitVec.ofNat 64 ea, size := n, store := store, dest := d,
                        sext := sext, tseq := t.tseq + 1, busy := 0, queries := 0, insn := insn }
    let s := s.modStall i (fun t => { t with state := .far, tseq := t.tseq + 1, farOp := some op })
    .ok () (s.farSend i op)

/-! ## Loads -/

/-- R146, R168: a load that missed the L2 to DRAM switches its stall out where SCHED_MISS says so. -/
def State.missOut (s : State) (i : Nat) (missed : Bool) : State :=
  if missed ∧ s.flag (aMiss (i / 8)) (i % 8) then s.modStall i (fun t => { t with state := .miss }) else s

/-- R168, R221: the load of a part goes to DRAM: no first-level cache, no L2 and no buffered store of the stall serves it. -/
def State.partMisses (s : State) (i : Nat) (p : XPart) : Bool :=
  s.target p.pa == .dram && s.missesL2 p.pa p.n &&
    (deviceAttr p.attr ||
      !(((mergedStores (s.stall i).sbuf).filter (fun g => g.any (fun b => shares b.pa.toNat b.data.length p.pa p.n))).getLast?.any
        (fun g => (forwarded g p.pa p.n).isSome)))

/-- A local load that has passed its capability checks: its bytes, its tag, and whether it missed the L2 to DRAM. -/
def State.loadLocal (s : State) (i : Nat) (m : Mode) (ea n : Nat) : Res (List Byte × Bool × Bool) :=
  if i = 32 then (s.loadAt i m ea n).bind (fun r s => .ok (r.1, r.2, false) s)
  else (s.prepare i m none ea n).bind (fun ps s =>
    let missed := ps.any (fun p => s.partMisses i p)
    (s.coreLoad i m ps).bind (fun r s => .ok (r.1, r.2, missed) s))

/-- R182, R183: a load of n bytes; `put` writes the destination from the bytes and the tag. -/
def State.load (s : State) (i : Nat) (a d : Reg) (ea : Int) (n align : Nat) (cap sext u : Bool) (insn : W32)
    (put : List Byte → Bool → State → State) : Res Unit :=
  let c := s.rd i a
  match accFault c a.toNat 0 (i != 32) [permLoad] ea n align none with
  | some x => .exc x s
  | none =>
    if s.breakAt i [2, 4] ea.toNat n then s.fail vBreak 0 0
    else if Cap.kind c = 3 then
      if cap then s.fail vFarExport ea.toNat (Cap.node c).toNat
      else s.farIssue i c ea.toNat n none d sext insn
    else (s.loadLocal i ((s.stall i).mode .load u) ea.toNat n).bind (fun r s =>
      ((put r.1 r.2.1 s).missOut i r.2.2).goOn i)

/-- R191: an integer load of n bytes. -/
def loadInt (st : Ctx) (d a : Reg) (m : MemForm) (index n : Nat) (sext : Bool) (s : State) : Out :=
  let i := st.val
  let insn := m.insn index d a
  issue i insn (unlessIllegal (m.bad i) (fun s =>
    s.load i a d (m.ea s i a) n 1 false sext m.user insn (fun bs _ s =>
      s.wrInt i d (if sext then sextN (8 * n) (ofBytes bs) else BitVec.ofNat 64 (ofBytes bs))))) s

/-- R191: LB. -/
def execLb (st : Ctx) (d a : Reg) (m : MemForm) (s : State) : Out := loadInt st d a m 0 1 true s
/-- R191: LBU. -/
def execLbu (st : Ctx) (d a : Reg) (m : MemForm) (s : State) : Out := loadInt st d a m 1 1 false s
/-- R191: LH. -/
def execLh (st : Ctx) (d a : Reg) (m : MemForm) (s : State) : Out := loadInt st d a m 2 2 true s
/-- R191: LHU. -/
def execLhu (st : Ctx) (d a : Reg) (m : MemForm) (s : State) : Out := loadInt st d a m 3 2 false s
/-- R191: LW. -/
def execLw (st : Ctx) (d a : Reg) (m : MemForm) (s : State) : Out := loadInt st d a m 4 4 true s
/-- R191: LWU. -/
def execLwu (st : Ctx) (d a : Reg) (m : MemForm) (s : State) : Out := loadInt st d a m 5 4 false s
/-- R191: LD. -/
def execLd (st : Ctx) (d a : Reg) (m : MemForm) (s : State) : Out := loadInt st d a m 6 8 false s

/-- R191: LDC: the tag is kept where A carries LOAD_CAP. -/
def execLdc (st : Ctx) (d a : Reg) (m : MemForm) (s : State) : Out :=
  let i := st.val
  let insn := m.insn 7 d a
  issue i insn (unlessIllegal (m.bad i) (fun s =>
    let keep := Cap.has (s.rd i a) permLoadCap
    s.load i a d (m.ea s i a) 16 16 true false m.user insn (fun bs tag s => s.wr i d (capOfBytes bs (tag && keep))))) s

/-- R191: LDBLK: X0 to X7 take eight doublewords. -/
def execLdblk (st : Ctx) (d a : Reg) (imm : BitVec 16) (s : State) : Out :=
  let i := st.val
  let insn := encI 0x1D d a imm
  issue i insn (unlessIllegal (d != 0) (fun s =>
    s.load i a d ((MemForm.off imm).ea s i a) 64 64 false false false insn (fun bs _ s =>
      (List.range 8).foldl (fun s k => s.wrInt i (BitVec.ofNat 5 (24 + k)) (BitVec.ofNat 64 (leField bs (8 * k) 8))) s))) s

/-! ## Stores -/

/-- R182, R183: a store of bytes; `value` is the capability that STC stores. -/
def State.storeOp (s : State) (i : Nat) (a : Reg) (ea : Int) (bs : List Byte) (align : Nat) (value : Option (Capv × Reg)) (u : Bool)
    (insn : W32) : Res Unit :=
  let c := s.rd i a
  match accFault c a.toNat 1 (i != 32) [permStore] ea bs.length align value with
  | some x => .exc x s
  | none =>
    if s.breakAt i [3, 4] ea.toNat bs.length then s.fail vBreak 0 0
    else if Cap.kind c = 3 then
      if value.isSome then s.fail vFarExport ea.toNat ((Cap.node c).toNat + 0x1000)
      else s.farIssue i c ea.toNat bs.length (some bs) 0 false insn
    else
      let tag : Bool := match value with
        | some (v, _) => v.tag
        | none => false
      let memOnly : Option Exc := match value with
        | some (v, r) => if v.tag then some (accExc vPerm ea (capDetail r.toNat true 1 false)) else none
        | none => none
      (s.storeAt i ((s.stall i).mode .store u) memOnly ea.toNat bs tag).bind (fun _ s => s.goOn i)

/-- R191: an integer store of n bytes. -/
def storeInt (st : Ctx) (d a : Reg) (m : MemForm) (index n : Nat) (s : State) : Out :=
  let i := st.val
  let insn := m.insn index d a
  issue i insn (unlessIllegal (m.bad i) (fun s =>
    s.storeOp i a (m.ea s i a) (toBytes n (s.rdInt i d).toNat) 1 none m.user insn)) s

/-- R191: SB. -/
def execSb (st : Ctx) (d a : Reg) (m : MemForm) (s : State) : Out := storeInt st d a m 8 1 s
/-- R191: SH. -/
def execSh (st : Ctx) (d a : Reg) (m : MemForm) (s : State) : Out := storeInt st d a m 9 2 s
/-- R191: SW. -/
def execSw (st : Ctx) (d a : Reg) (m : MemForm) (s : State) : Out := storeInt st d a m 10 4 s
/-- R191: SD. -/
def execSd (st : Ctx) (d a : Reg) (m : MemForm) (s : State) : Out := storeInt st d a m 11 8 s

/-- R191: STC. -/
def execStc (st : Ctx) (d a : Reg) (m : MemForm) (s : State) : Out :=
  let i := st.val
  let insn := m.insn 12 d a
  issue i insn (unlessIllegal (m.bad i) (fun s =>
    let v := s.rd i d
    s.storeOp i a (m.ea s i a) (toBytes 16 v.bits.toNat) 16 (some (v, d)) m.user insn)) s

/-- R191: STBLK: eight doublewords from X0 to X7. -/
def execStblk (st : Ctx) (d a : Reg) (imm : BitVec 16) (s : State) : Out :=
  let i := st.val
  let insn := encI 0x1E d a imm
  issue i insn (unlessIllegal (d != 0) (fun s =>
    s.storeOp i a ((MemForm.off imm).ea s i a)
      ((List.range 8).flatMap (fun k => toBytes 8 (s.rdInt i (BitVec.ofNat 5 (24 + k))).toNat)) 64 none false insn)) s

end Sys2Proof.Machine
end

