-- ==== Sys2Proof/Machine/Ctrl.lean ====
section
/-!
DEFINITION. Sys2Proof/Machine/Ctrl.lean: branches and jumps (R196 to R198), ENTER and LEAVE (R151, R152), STOW and UNSTOW
(R155 to R158), WAIT (R172) and YIELD (R168).
-/
namespace Sys2Proof.Machine

/-! ## Branches and jumps -/

/-- The cursor of PCC moves by a distance (R119, R198). The spec says of CINC alone that its sum is taken modulo 2^64; the model
takes that of every PC-relative target the same way, before the window test of R119 (DESIGN CHOICE, log 45). -/
def State.jumpBy (s : State) (i : Nat) (d : W64) : Res Unit :=
  .ok () (s.modStall i (fun t => { t with pcc := Cap.setAddr t.pcc (Cap.addr t.pcc + d) }))

/-- R196: a conditional branch. -/
def branch (st : Ctx) (a b : Reg) (off : BitVec 13) (cond : Nat) (one : Bool) (f : Capv → Capv → Bool) (s : State) : Out :=
  let i := st.val
  issue i (encB 0x24 a b cond off) (unlessIllegal (one && b != 0) (fun s =>
    if f (s.rd i a) (s.rd i b) then s.jumpBy i (off13x4 off) else s.goOn i)) s

/-- R196: BEQ. -/
def execBeq (st : Ctx) (a b : Reg) (off : BitVec 13) (s : State) : Out := branch st a b off 0 false (fun x y => Cap.int x == Cap.int y) s
/-- R196: BNE. -/
def execBne (st : Ctx) (a b : Reg) (off : BitVec 13) (s : State) : Out := branch st a b off 1 false (fun x y => Cap.int x != Cap.int y) s
/-- R196: BLT. -/
def execBlt (st : Ctx) (a b : Reg) (off : BitVec 13) (s : State) : Out := branch st a b off 2 false (fun x y => (Cap.int x).slt (Cap.int y)) s
/-- R196: BGE. -/
def execBge (st : Ctx) (a b : Reg) (off : BitVec 13) (s : State) : Out := branch st a b off 3 false (fun x y => !(Cap.int x).slt (Cap.int y)) s
/-- R196: BLTU. -/
def execBltu (st : Ctx) (a b : Reg) (off : BitVec 13) (s : State) : Out := branch st a b off 4 false (fun x y => (Cap.int x).ult (Cap.int y)) s
/-- R196: BGEU. -/
def execBgeu (st : Ctx) (a b : Reg) (off : BitVec 13) (s : State) : Out := branch st a b off 5 false (fun x y => !(Cap.int x).ult (Cap.int y)) s
/-- R196: BT. -/
def execBt (st : Ctx) (a b : Reg) (off : BitVec 13) (s : State) : Out := branch st a b off 6 true (fun x _ => x.tag) s
/-- R196: BNT. -/
def execBnt (st : Ctx) (a b : Reg) (off : BitVec 13) (s : State) : Out := branch st a b off 7 true (fun x _ => !x.tag) s

/-- R197: JL. -/
def execJl (st : Ctx) (d : Reg) (imm : BitVec 21) (s : State) : Out :=
  let i := st.val
  issue i (encL 0x25 d imm) (fun s =>
    let pcc := (s.stall i).pcc
    (s.wr i d (Cap.setAddr pcc (Cap.addr pcc + 4))).jumpBy i (imm21x4 imm)) s

/-- R197: JR. -/
def execJr (st : Ctx) (d a b : Reg) (s : State) : Out :=
  let i := st.val
  issue i (encA 0x26 d a b 0) (unlessIllegal (d != 0 || b != 0) (fun s =>
    let c := s.rd i a
    if ¬ c.tag then s.failA vTag a
    else if Cap.kind c ≠ 0 then s.failA vKind a
    else .ok () (s.modStall i (fun t => { t with pcc := c })))) s

/-! ## ENTER and LEAVE -/

/-- R151: the window movement of ENTER, with the return door in P7. -/
def Stall.enterWindow (t : Stall) (m : Nat) : Stall :=
  let w := (t.wptr + 1) % m
  let door := Cap.asDoor (Cap.setAddr t.pcc (Cap.addr t.pcc + 4))
  { t with wptr := w, live := t.live + 1, win := vset t.win w { Win.zero with p := vset Win.zero.p 7 door } }

/-- R122, R151, R199: ENTER. -/
def State.enterOp (s : State) (i : Nat) (a : Reg) : Res Unit :=
  let c := s.rd i a
  if ¬ c.tag then s.failA vTag a
  else if Cap.kind c ≠ 0 ∧ Cap.kind c ≠ 1 then s.failA vKind a
  else if Cap.kind c = 0 ∧ ¬ Cap.has c permExec then s.fail vNxFetch (Cap.addr c).toNat 128
  else if (s.stall i).live = nwin i then s.plain vNest
  else
    let dest := if Cap.kind c = 1 then Cap.openDoor c else c
    .ok () (s.modStall i (fun t => { t.enterWindow (nwin i) with pcc := dest }))

/-- R199: ENTER. -/
def execEnter (st : Ctx) (d a b : Reg) (s : State) : Out :=
  issue st.val (encA 0x26 d a b 1) (unlessIllegal (d != 0 || b != 0) (fun s => s.enterOp st.val a)) s

/-- R152: LEAVE; P7 is specifier 23. -/
def State.leaveOp (s : State) (i : Nat) : Res Unit :=
  let c := s.rd i 23
  let m := nwin i
  if ¬ c.tag then s.failA vTag 23
  else if Cap.kind c ≠ 1 ∧ ¬ (Cap.kind c = 0 ∧ Cap.has c permExec) then s.failA vKind 23
  else if (s.stall i).live = 1 then s.plain vNest
  else
    let dest := if Cap.kind c = 1 then Cap.openDoor c else c
    .ok () (s.modStall i (fun t => { t with pcc := dest, wptr := (t.wptr + m - 1) % m, live := t.live - 1 }))

/-- R199: LEAVE. -/
def execLeave (st : Ctx) (d a b : Reg) (s : State) : Out :=
  issue st.val (encA 0x26 d a b 2) (unlessIllegal (d != 0 || a != 0 || b != 0) (fun s => s.leaveOp st.val)) s

/-! ## STOW and UNSTOW -/

/-- R150: OLDEST. -/
def Stall.oldest (t : Stall) : Nat := (t.wptr + 17 - t.live) % 16

/-- The registers of a half in save-area order (R155): P0 to P7 and X0 to X7 of each window, the base entry registers in
the place of the last window's X. -/
def Stall.halfRegs (t : Stall) (half : Nat) : List Capv :=
  (List.range 8).flatMap (fun w =>
    let win := t.window (8 * half + w)
    win.p.toList ++ (if w = 7 then t.base.toList else win.x.toList))

/-- R158: the bytes of a save area. -/
def Stall.saveArea (t : Stall) (i half : Nat) : List Byte :=
  toBytes 16 t.stowp.bits.toNat ++ [BitVec.ofNat 8 half, BitVec.ofNat 8 t.wptr, BitVec.ofNat 8 t.live,
    BitVec.ofNat 8 (i / 8 % 4 + i % 8 * 4)] ++ List.replicate 44 0 ++ (t.halfRegs half).flatMap (fun c => toBytes 16 c.bits.toNat)

/-- The tags of a save area's granules. -/
def Stall.saveTags (t : Stall) (half : Nat) : List Bool := [t.stowp.tag, false, false, false] ++ (t.halfRegs half).map (fun c => c.tag)

/-- The writes of a save area, part by part. -/
def State.putArea (s : State) (i : Nat) : List XPart → List Byte → List Bool → State
  | [], _, _ => s
  | p :: ps, bs, tags => (s.writeTarget (.data (i / 8) p.attr) p.pa (bs.take p.n) (tags.take (p.n / 16))).putArea i ps (bs.drop p.n) (tags.drop (p.n / 16))

/-- R155: what STOW does to the registers. -/
def Stall.stowed (t : Stall) (half : Nat) (area : Capv) : Stall :=
  { t with base := (t.window (8 * half + 7)).x, live := t.live - 8, stowp := area }

/-- R155, R157, R158: STOW of a half. -/
def State.stow (s : State) (i half : Nat) (a : Reg) : Res Unit :=
  let t := s.stall i
  let c := s.rd i a
  let ea := (Cap.addr c).toNat
  if t.oldest ≠ 8 * half ∨ t.wptr / 8 = half then s.plain vIllegal
  else match accFault c a.toNat 1 false [permStore, permStoreCap] ea 2112 64 none with
    | some x => .exc x s
    | none =>
      if s.breakAt i [3, 4] ea 2112 then s.fail vBreak 0 0
      else (s.prepare i (t.mode .store false) (some (accExc vPerm ea (capDetail a.toNat false 1 false))) ea 2112).bind (fun ps s =>
        let s := (s.drain i).putArea i ps (t.saveArea i half) (t.saveTags half)
        (s.modStall i (fun t => t.stowed half c)).goOn i)

/-- R199: STOW.LO. -/
def execStowLo (st : Ctx) (d a b : Reg) (s : State) : Out :=
  issue st.val (encA 0x26 d a b 5) (unlessIllegal (st.val == 32 || d != 0 || b != 0) (fun s => s.stow st.val 0 a)) s
/-- R199: STOW.HI. -/
def execStowHi (st : Ctx) (d a b : Reg) (s : State) : Out :=
  issue st.val (encA 0x26 d a b 6) (unlessIllegal (st.val == 32 || d != 0 || b != 0) (fun s => s.stow st.val 1 a)) s

/-- The tags of the granules of parts. -/
def State.partTags (s : State) (ps : List XPart) : List Bool :=
  ps.flatMap (fun p => (List.range (p.n / 16)).map (fun k => s.tagAt (p.pa + 16 * k)))

/-- Eight registers of a save area, from a slot. -/
def areaRegs (slots : List Capv) (k : Nat) : Vector Capv 8 := Vector.ofFn (fun r => slots.getD (k + r.val) Cap.null)

/-- R156: what UNSTOW does to the registers. -/
def Stall.unstowed (t : Stall) (half : Nat) (slots : List Capv) (link : Capv) : Stall :=
  let f := fun (w : Vector Win 16) (k : Nat) =>
    let x := if k = 7 then t.base else areaRegs slots (16 * k + 8)
    vset w (8 * half + k) { p := areaRegs slots (16 * k), x := x }
  { t with win := (List.range 8).foldl f t.win, base := areaRegs slots 120, live := t.live + 8, stowp := link }

/-- R156, R157: UNSTOW; STOWP is special register 8. -/
def State.unstow (s : State) (i : Nat) : Res Unit :=
  let t := s.stall i
  let c := t.stowp
  let ea := (Cap.addr c).toNat
  let d := capDetail 8 false 0 true
  if 8 < t.live then s.plain vIllegal
  else match accFault c 0 0 false [permLoad, permLoadCap] ea 2112 64 none with
    | some x => .exc { x with detail := BitVec.ofNat 64 d } s
    | none =>
      if s.breakAt i [2, 4] ea 2112 then s.fail vBreak 0 0
      else
        let m := t.mode .load false
        (s.prepare i m (some (accExc vPerm ea d)) ea 2112).bind (fun ps s =>
          ((s.drain i).coreLoad i m ps).bind (fun r s =>
            let bs := r.1
            let tags := s.partTags ps
            let slot := fun (k : Nat) => capOfBytes ((bs.drop (16 * k)).take 16) (tags.getD k false)
            let half := leField bs 16 1
            if half ≠ 1 - t.oldest / 8 ∨ (bs.drop 20).take 44 ≠ List.replicate 44 0 then s.plain vIllegal
            else (s.modStall i (fun t => t.unstowed half ((List.range 128).map (fun k => slot (k + 4))) (slot 0))).goOn i))

/-- R199: UNSTOW. -/
def execUnstow (st : Ctx) (d a b : Reg) (s : State) : Out :=
  issue st.val (encA 0x26 d a b 7) (unlessIllegal (st.val == 32 || d != 0 || a != 0 || b != 0) (fun s => s.unstow st.val)) s

/-! ## WAIT and YIELD -/

/-- R172: WAIT. -/
def State.waitOp (s : State) (i : Nat) (d : Reg) (mask : W64) : Res Unit :=
  let t := s.stall i
  let got := t.evpend &&& mask &&& t.evmask
  if mask &&& t.evmask = 0 then s.plain vIllegal
  else if got ≠ 0 then ((s.modStall i (fun t => { t with evpend := t.evpend &&& ~~~ got })).wrInt i d got).goOn i
  else .ok () (s.modStall i (fun t => { t with state := .waiting, waitFor := some (d, mask) }))

/-- R199: WAIT. -/
def execWait (st : Ctx) (d a b : Reg) (s : State) : Out :=
  issue st.val (encA 0x26 d a b 3) (unlessIllegal (b != 0) (fun s => s.waitOp st.val d (s.rdInt st.val a))) s

/-- R168: another READY stall of the core has a priority equal or higher. -/
def State.othersReady (s : State) (i : Nat) (p : BitVec 3 → BitVec 3 → Bool) : Bool :=
  (List.range 8).any (fun n =>
    let j := 8 * (i / 8) + n
    j != i && (s.stall j).state == .ready && p (s.stall j).prio (s.stall i).prio)

/-- R168, R199, R201: YIELD. -/
def execYield (st : Ctx) (d a b : Reg) (s : State) : Out :=
  let i := st.val
  issue i (encA 0x26 d a b 4) (unlessIllegal (d != 0 || a != 0 || b != 0) (fun s =>
    if i < 32 ∧ s.othersReady i (fun x y => y.ule x) then
      (s.modStall i (fun t => { t with state := .ready })).goOn i
    else s.goOn i)) s

end Sys2Proof.Machine
end

