-- ==== Sys2Proof/Machine/System.lean ====
section
/-!
DEFINITION. Sys2Proof/Machine/System.lean: special registers and MVSP (R229, R231), the fences (R225, R226), XINV (R227,
R275, R276), GRANT.FENCE (R143) and reserved encodings (R177).
-/
namespace Sys2Proof.Machine

/-! ## Special registers (R231) -/

/-- R231: IDENT; that of the Sacristy core, which has no core and stall number, is free (DESIGN CHOICE, log 46). -/
def State.ident (s : State) (i : Nat) : W64 :=
  if i = 32 then Config.sacIdent else
  let node := match s.ring.node with
    | some n => if s.gateway then 0 else n.toNat
    | none => 0
  BitVec.ofNat 64 (node * 256 + i)

/-- R231: the value of special register n of a context; none where the number is reserved. -/
def State.specRead (s : State) (i n : Nat) : Option Capv :=
  let t := s.stall i
  match n with
  | 0x00 => some t.pcc
  | 0x01 => some (Cap.ofInt (t.sr.zeroExtend 64))
  | 0x02 => some t.tsbr
  | 0x03 => some (Cap.ofInt (t.shut.zeroExtend 64))
  | 0x04 => some (Cap.ofInt (BitVec.ofNat 64 t.wptr))
  | 0x05 => some (Cap.ofInt (BitVec.ofNat 64 t.live))
  | 0x06 => some (Cap.ofInt t.evmask)
  | 0x07 => some (Cap.ofInt t.evpend)
  | 0x08 => some t.stowp
  | 0x09 => some (Cap.ofInt t.squint)
  | 0x0A => some (Cap.ofInt (t.fpsr.zeroExtend 64))
  | 0x0B => some (Cap.ofInt (t.fpcr.zeroExtend 64))
  | 0x0C => some (Cap.ofInt t.xroot)
  | 0x0D => some (Cap.ofInt (if i = 32 then s.sac.coreCycle else (s.core (i / 8)).cycle))
  | 0x0E => some (Cap.ofInt t.run)
  | 0x0F => some (Cap.ofInt (if i = 32 then s.tt.sac else s.tt.now))
  | 0x10 => some (Cap.ofInt (s.ident i))
  | _ => none

/-- R229, R150: a write of special register n of a context with windows m; none where it raises ILLEGAL. -/
def Stall.specWrite (t : Stall) (i n : Nat) (v : Capv) : Option Stall :=
  let x := Cap.int v
  match n with
  | 0x01 => some { t with sr := x.truncate 32 &&& 0x3F }
  | 0x02 => some { t with tsbr := v }
  | 0x03 => some { t with shut := x.truncate 32 }
  | 0x04 => if windowsLegal i x.toNat t.live then some { t with wptr := x.toNat } else none
  | 0x05 => if windowsLegal i t.wptr x.toNat then some { t with live := x.toNat } else none
  | 0x06 => some { t with evmask := x }
  | 0x07 => some { t with evpend := t.evpend &&& ~~~ x }
  | 0x08 => some { t with stowp := v }
  | 0x09 => some { t with squint := x &&& 0xFFFF }
  | 0x0A => some { t with fpsr := x.truncate 32 &&& 0x1F }
  | 0x0B => some { t with fpcr := x.truncate 32 &&& 0x11F3 }
  | 0x0C => some { t with xroot := x &&& 0xFFF00FFFFFFFF001 }
  | _ => none

/-- R231: reading needs SYS. -/
def specReadSys (n : Nat) : Bool := n == 0x02 || n == 0x09 || n == 0x0C
/-- R231: writing needs SYS. -/
def specWriteSys (n : Nat) : Bool := [0x01, 0x02, 0x04, 0x05, 0x06, 0x07, 0x08, 0x09, 0x0C].contains n

/-- R229: MVSP.R. -/
def State.mvspRead (s : State) (i : Nat) (d b : Reg) : Res Unit :=
  match s.specRead i b.toNat with
  | none => s.plain vIllegal
  | some v => if specReadSys b.toNat ∧ (s.stall i).userMode then s.plain vPriv else (s.wr i d v).goOn i

/-- R229: MVSP.W. -/
def State.mvspWrite (s : State) (i : Nat) (a b : Reg) : Res Unit :=
  match (s.stall i).specWrite i b.toNat (s.rd i a) with
  | none => s.plain vIllegal
  | some t =>
    if specWriteSys b.toNat ∧ (s.stall i).userMode then s.plain vPriv
    else (s.modStall i (fun _ => t)).goOn i

/-- R229: MVSP.R. -/
def execMvspR (st : Ctx) (d a b : Reg) (low : BitVec 7) (s : State) : Out :=
  issue st.val (encA 0x3D d a b low.toNat) (unlessIllegal (a != 0 || low != 0) (fun s => s.mvspRead st.val d b)) s
/-- R229: MVSP.W. -/
def execMvspW (st : Ctx) (d a b : Reg) (low : BitVec 7) (s : State) : Out :=
  issue st.val (encA 0x3D d a b (128 + low.toNat)) (unlessIllegal (d != 0 || low != 0) (fun s => s.mvspWrite st.val a b)) s

/-! ## Fences (R225) -/

/-- R225: FENCE.MEM: every earlier access of the stall is performed. -/
def State.fenced (s : State) (i : Nat) : State := s.beginReg i

/-- R225: every field of a fence is 0. -/
def fenceBad (d a b : Reg) : Bool := d != 0 || a != 0 || b != 0

/-- R225: FENCE.MEM. -/
def execFenceMem (st : Ctx) (d a b : Reg) (s : State) : Out :=
  issue st.val (encA 0x3C d a b 0) (unlessIllegal (fenceBad d a b) (fun s => (s.fenced st.val).goOn st.val)) s
/-- R224, R225: FENCE.INS: the L1 instruction cache of the core is invalidated; of fetched instructions the model holds none
(log 27). -/
def State.fencedIns (s : State) (i : Nat) : State :=
  let s := s.fenced i
  if i < 32 then { s with caches := s.caches.dropIns (i / 8) } else s

/-- R225: FENCE.INS. -/
def execFenceIns (st : Ctx) (d a b : Reg) (s : State) : Out :=
  issue st.val (encA 0x3C d a b 1) (unlessIllegal (fenceBad d a b) (fun s => (s.fencedIns st.val).goOn st.val)) s

/-! ## XINV (R227, R275, R276) -/

/-- R275: the entries that an XINV removes. -/
def Core.invalidate (c : Core) (addr : Option W64) : Core :=
  match addr with
  | none => { c with tlb := [], walk := [] }
  | some a =>
    if 2 ^ 48 ≤ a.toNat then c
    else { c with tlb := c.tlb.filter (fun e => !e.covers a.toNat),
                  walk := c.walk.filter (fun w => w.vaHi ≠ a.toNat / 2 ^ (39 - 9 * w.level)) }

/-- R276: an XINV completes on a core: the entries are removed and the stores translated through them are visible. -/
def State.xinvDone (s : State) (c : Nat) (q : XinvReq) : State :=
  let s := (List.range 8).foldl (fun s n => s.drain (8 * c + n)) s
  let s := s.modCore c (fun k => { k.invalidate q.addr with xinv := k.xinv.filter (fun x => x.id ≠ q.id) })
  if (List.range 4).any (fun k => (s.core k).xinv.any (fun x => x.id = q.id)) then s
  else s.modStall q.st (fun t => { t with xinvs := t.xinvs.filter (fun x => x ≠ q.id) })

/-- R225: every XINV that a stall issued completes on every core it addressed. -/
def State.xinvAll (s : State) (i : Nat) : State :=
  (List.range 4).foldl (fun s c => ((s.core c).xinv.filter (fun q => q.st = i)).foldl (fun s q => s.xinvDone c q) s) s

/-- R225: FENCE.XLT. -/
def execFenceXlt (st : Ctx) (d a b : Reg) (s : State) : Out :=
  let i := st.val
  issue i (encA 0x3C d a b 2) (unlessIllegal (i == 32 || fenceBad d a b) (privileged i (fun s =>
    (((s.fenced i).xinvAll i).modStall i (fun t => { t with xinvs := [] })).goOn i))) s

/-- R225: FENCE.SCR: every rule written is in effect for every initiator. -/
def execFenceScr (st : Ctx) (d a b : Reg) (s : State) : Out :=
  let i := st.val
  issue i (encA 0x3C d a b 3) (unlessIllegal (i == 32 || fenceBad d a b) (privileged i (fun s =>
    let s := s.fenced i
    let s := if s.screen.old = [] then s else s.drainAll
    State.goOn { s with screen := { s.screen with old := [] } } i)) ) s

/-- R227: an XINV is issued to its cores. -/
def State.xinvIssue (s : State) (i : Nat) (everywhere : Bool) (addr : Option W64) : State :=
  let id := 1 + (List.range 4).foldl (fun m c => (s.core c).xinv.foldl (fun m q => max m q.id) m) 0
  let cores := (List.range 4).filter (fun c => if everywhere then !s.coreOut c else c == i / 8)
  let s := cores.foldl (fun s c => s.modCore c (fun k => { k with xinv := k.xinv ++ [{ id := id, st := i, addr := addr }] })) s
  s.modStall i (fun t => { t with xinvs := t.xinvs ++ [id] })

/-- R225, R227: the forms of XINV; `g` and `all` are FN[0] and FN[1]. -/
def xinvOp (st : Ctx) (d a b : Reg) (g all : Bool) (s : State) : Out :=
  let i := st.val
  issue i (encA 0x3C d a b (0x10 + g.toNat + 2 * all.toNat))
    (unlessIllegal (i == 32 || d != 0 || b != 0 || (all && a != 0)) (privileged i (fun s =>
      (s.xinvIssue i g (if all then none else some (s.rdInt i a))).goOn i))) s

/-- R227: XINV. -/
def execXinv (st : Ctx) (d a b : Reg) (s : State) : Out := xinvOp st d a b false false s
/-- R227: XINV.G. -/
def execXinvG (st : Ctx) (d a b : Reg) (s : State) : Out := xinvOp st d a b true false s
/-- R227: XINV.A. -/
def execXinvA (st : Ctx) (d a b : Reg) (s : State) : Out := xinvOp st d a b false true s
/-- R227: XINV.GA. -/
def execXinvGa (st : Ctx) (d a b : Reg) (s : State) : Out := xinvOp st d a b true true s

/-- R276: XINV_COMPLETE: the oldest XINV outstanding on a core completes there. -/
def execXinvComplete (core : Fin 4) (s : State) : Out :=
  match (if s.holds92 (.core core) then [] else (s.core core.val).xinv) with
  | [] => .next s
  | q :: _ => .next (s.xinvDone core.val q)

/-- R221: STORE_VISIBLE: the oldest buffered store of a context becomes visible. -/
def execStoreVisible (st : Ctx) (s : State) : Out := .next (s.drainOne st.val)

/-! ## GRANT.FENCE (R143, R226) -/

/-- R143, R226: GRANT.FENCE holds its core. Every far-in access that passed its check has been performed, since a check
and its access are one step, so the fence awaits none (log 29). -/
def execGrantFence (st : Ctx) (d a b : Reg) (s : State) : Out :=
  let i := st.val
  issue i (encA 0x3C d a b 4) (unlessIllegal (i == 32 || fenceBad d a b) (privileged i (fun s =>
    .ok () (s.modCore (i / 8) (fun c => { c with fence := some (i, []) }))))) s

/-- R143, R166, R226, R591: GRANT_FENCE_COMPLETE: the held stall goes on, or stops or halts at this instruction boundary if that was
asked for meanwhile. -/
def execGrantFenceComplete (core : Fin 4) (s : State) : Out :=
  match (if s.holds92 (.core core) then none else (s.core core.val).fence) with
  | some (i, []) =>
    let s := (s.modCore core.val (fun c => { c with fence := none })).modStall i Stall.advance
    let t := s.stall i
    .next (if t.haltReq.isSome ∨ t.stopReq then (s.modStall i Stall.wake).groupHalt i else s)
  | _ => .next s

/-! ## Reserved encodings (R177) -/

/-- R175, R177, R188, R192, R195, R199, R200, R211 to R213, R217, R225, R228: a word that no instruction of the tables
has: its OP, FN or COND is reserved. -/
def reservedWord (w : W32) : Bool :=
  let op := bits w 31 26
  let fn := bits w 10 0
  match op with
  | 0x01 => decide (fn % 1024 = 0x13 ∨ 0x1F ≤ fn % 1024)
  | 0x1F => decide (13 ≤ fn % 16)
  | 0x20 => decide (0x0E < fn)
  | 0x26 => decide (7 < fn)
  | 0x27 => decide (5 < fn ∧ fn ≠ 8 ∧ fn ≠ 9 ∧ fn ≠ 0x10)
  | 0x30 => decide (fn % 256 = 7 ∨ 11 < fn % 256)
  | 0x31 => decide (fn % 256 = 7 ∨ 11 < fn % 256)
  | 0x32 => decide ((3 < fn % 256 ∧ fn % 256 < 0x10) ∨ (0x17 < fn % 256 ∧ fn % 256 < 0x20) ∨ 0x23 < fn % 256)
  | 0x33 => decide (6 < fn % 256)
  | 0x38 => decide (0xB ≤ fn % 16)
  | 0x3C => decide (4 < fn ∧ ¬ (0x10 ≤ fn ∧ fn ≤ 0x13))
  | 0x3D => decide (4 * 128 ≤ fn)
  | _ => [0x00, 0x0D, 0x0E, 0x0F, 0x23, 0x28, 0x29, 0x2A, 0x2B, 0x2C, 0x2D, 0x2E, 0x2F, 0x34, 0x37, 0x39, 0x3A, 0x3B, 0x3E, 0x3F].contains op

/-- R177: RESERVED_ENCODING. -/
def execReservedEncoding (st : Ctx) (word : BitVec 32) (s : State) : Out :=
  if reservedWord word then issue st.val word (fun s => s.plain vIllegal) s else .next s

end Sys2Proof.Machine
end

