-- ==== Sys2Proof/Machine/Stalls.lean ====
section
/-!
DEFINITION. Sys2Proof/Machine/Stalls.lean: stall handles and stall control (R165, R166), the squint register (R160 to
R162), the scheduler (R167 to R169), misses (R146), and events and their limiters (R170, R174, R251).
-/
namespace Sys2Proof.Machine

/-! ## Handles (R165) -/

/-- R166: a core is absent, parked, or has not yet left reset. -/
def State.coreDown (s : State) (c : Nat) : Bool := s.coreOut c || !s.unitReady c

/-- R92: the clock of a core relocks: it issues nothing, decides nothing, and nothing arrives there. -/
def State.coreHeld (s : State) (c : Nat) : Bool := s.holds92 (.core (Fin.ofNat 4 c))

/-- R165: the handle of a stall. -/
def Cap.handle (n : Nat) : Capv := Cap.make 2 0x303 0 (BitVec.ofNat 64 n) ⟨0, n, 0, n, n⟩

/-- R165: SHANDLE. -/
def State.shandle (s : State) (i : Nat) (d a : Reg) : Res Unit :=
  let n := bits (s.rdInt i a) 4 0
  if s.coreOut (n / 8) then s.plain vIllegal else (s.wr i d (Cap.handle n)).goOn i

/-- R200: SHANDLE. -/
def execShandle (st : Ctx) (d a b : Reg) (s : State) : Out :=
  let i := st.val
  issue i (encA 0x27 d a b 0) (unlessIllegal (i == 32 || b != 0) (privileged i (fun s => s.shandle i d a))) s

/-- R164, R166: the checks of a stall-control instruction, then its operation on the stall that the handle names; the
operation answers the status. -/
def State.stallOp (s : State) (i : Nat) (d a : Reg) (perm : Nat) (barred : Bool) (f : Nat → State → W64 × State) : Res Unit :=
  let c := s.rd i a
  let n := bits (Cap.addr c) 4 0
  if ¬ c.tag then s.failA vTag a
  else if Cap.kind c ≠ 2 then s.failA vKind a
  else if ¬ Cap.has c perm then s.failA vPerm a
  else if barred ∧ s.enclosed n ∧ ¬ s.enclosed i then s.plain vSquint
  else
    let s := s.modStall i Stall.advance
    let r := f n s
    .ok () (r.2.wrInt i d r.1)

/-- R166, R286, R163: a stall has become READY by STSTART. -/
def State.started (s : State) : State := s.lockScreen.orReg aEncCtrl 1

/-- R166: what STSTART does to an OFF stall. -/
def Stall.start (t : Stall) (c : Capv) : Stall := { t with pcc := c, wptr := 0, live := 1, evpend := 0, state := .ready }

/-- R166: STSTART. -/
def State.ststart (s : State) (n : Nat) (c : Capv) : W64 × State :=
  if s.coreDown (n / 8) then (1, s)
  else match (s.stall n).state with
    | .off => (0, (s.modStall n (fun t => t.start c)).started)
    | .stopped => (0, (s.modStall n (fun t => { t with state := .ready })).started)
    | _ => (1, s)

/-- R166: STSTOP; a stall that its GRANT.FENCE holds stops at its next instruction boundary, when the fence completes (R226). -/
def State.ststop (s : State) (n : Nat) : W64 × State :=
  if s.coreDown (n / 8) then (1, s)
  else match (s.stall n).state with
    | .running => (0, s.modStall n (fun t => if s.inFence n then { t with stopReq := true } else { t with state := .stopped }))
    | .ready | .waiting => (0, s.modStall n (fun t => { t with state := .stopped }))
    | .far | .miss => (0, s.modStall n (fun t => { t with stopReq := true }))
    | .off | .stopped | .halted | .lockdown => (1, s)

/-- R166: STPRIO. -/
def State.stprio (s : State) (n : Nat) (v : W64) : W64 × State :=
  if s.coreDown (n / 8) then (1, s) else (0, s.modStall n (fun t => { t with prio := v.truncate 3 }))

/-- R174, R252: an occurrence of software event 56 + k for one stall meets its limiter. -/
def State.raiseSoft (s : State) (n k : Nat) : State :=
  let e := 56 + k
  if bit s.events.running e then
    if bit s.events.held e then s.count (aLimited e)
    else { s with events := { s.events with held := putBit s.events.held e true, swHeld := vset s.events.swHeld k (Fin.ofNat 32 n) } }
  else if s.field (aLimit e) 15 0 = 0 then s.pend n e
  else (s.pend n e) |> fun s => { s with events := { s.events with running := putBit s.events.running e true } }

/-- R166: STSIG. -/
def State.stsig (s : State) (n : Nat) (v : W64) : W64 × State :=
  if s.coreDown (n / 8) ∨ (s.stall n).state = .off then (1, s) else (0, s.raiseSoft n (bits v 2 0))

/-- R166: STSTAT. -/
def State.ststat (s : State) (n : Nat) : W64 × State :=
  let t := s.stall n
  (if s.coreDown (n / 8) then 0 else BitVec.ofNat 64 (t.state.code + t.prio.toNat * 16 + (s.enclosed n).toNat * 128), s)

/-- R166, R200: STSTART. -/
def execStstart (st : Ctx) (d a b : Reg) (s : State) : Out :=
  let i := st.val
  issue i (encA 0x27 d a b 1) (unlessIllegal (i == 32) (fun s =>
    let c := s.rd i b
    s.stallOp i d a permStore true (fun n s => s.ststart n c))) s
/-- R166, R200: STSTOP. -/
def execStstop (st : Ctx) (d a b : Reg) (s : State) : Out :=
  let i := st.val
  issue i (encA 0x27 d a b 2) (unlessIllegal (i == 32 || b != 0) (fun s => s.stallOp i d a permStore true (fun n s => s.ststop n))) s
/-- R166, R200: STPRIO. -/
def execStprio (st : Ctx) (d a b : Reg) (s : State) : Out :=
  let i := st.val
  issue i (encA 0x27 d a b 3) (unlessIllegal (i == 32) (fun s =>
    let v := s.rdInt i b
    s.stallOp i d a permStore true (fun n s => s.stprio n v))) s
/-- R166, R200: STSIG. -/
def execStsig (st : Ctx) (d a b : Reg) (s : State) : Out :=
  let i := st.val
  issue i (encA 0x27 d a b 4) (unlessIllegal (i == 32) (fun s =>
    let v := s.rdInt i b
    s.stallOp i d a permStall false (fun n s => s.stsig n v))) s
/-- R166, R200: STSTAT. -/
def execStstat (st : Ctx) (d a b : Reg) (s : State) : Out :=
  let i := st.val
  issue i (encA 0x27 d a b 5) (unlessIllegal (i == 32 || b != 0) (fun s => s.stallOp i d a permLoad false (fun n s => s.ststat n))) s

/-! ## The squint register (R160 to R162) -/

/-- SQUINT.SPACE. -/
def sqSpace (q : W64) : Nat := bits q 15 14
/-- SQUINT.REG. -/
def sqReg (q : W64) : Nat := bits q 13 9
/-- SQUINT.WINDOW. -/
def sqWindow (q : W64) : Nat := bits q 8 5
/-- SQUINT.CORE and STALL, as a stall number. -/
def sqStall (q : W64) : Nat := bits q 1 0 * 8 + bits q 4 2

/-- R160: a general register, as if WPTR were WINDOW; an E specifier in OLDEST names the base entry registers. -/
def Stall.sqGet (t : Stall) (r w : Nat) : Capv :=
  let k := r % 8
  match r / 8 with
  | 0 => vget t.s k Cap.null
  | 1 => if w = t.oldest then vget t.base k Cap.null else vget (t.window ((w + 15) % 16)).x k Cap.null
  | 2 => vget (t.window w).p k Cap.null
  | _ => vget (t.window w).x k Cap.null

/-- R160: a general register takes a value. -/
def Stall.sqSet (t : Stall) (r w : Nat) (v : Capv) : Stall :=
  let k := r % 8
  match r / 8 with
  | 0 => { t with s := vset t.s k v }
  | 1 =>
    if w = t.oldest then { t with base := vset t.base k v }
    else { t with win := vmod t.win ((w + 15) % 16) (fun x => { x with x := vset x.x k v }) }
  | 2 => { t with win := vmod t.win w (fun x => { x with p := vset x.p k v }) }
  | _ => { t with win := vmod t.win w (fun x => { x with x := vset x.x k v }) }

/-- R160, R229: what SQUINT selects in a stall; none: ILLEGAL. -/
def State.sqRead (s : State) (q : W64) (n : Nat) : Option Capv :=
  match sqSpace q with
  | 0 => some ((s.stall n).sqGet (sqReg q) (sqWindow q))
  | 1 => s.specRead n (sqReg q)
  | _ => none

/-- R160, R229, R250: a write of what SQUINT selects; none: ILLEGAL. A new SR or EVMASK may wake a waiting stall. -/
def State.sqWrite (s : State) (q : W64) (n : Nat) (v : Capv) : Option State :=
  match sqSpace q with
  | 0 => some (s.modStall n (fun t => t.sqSet (sqReg q) (sqWindow q) v))
  | 1 => ((s.stall n).specWrite n (sqReg q) v).map (fun t => (s.modStall n (fun _ => t)).rouse n)
  | _ => none

/-- R161, R162: the access of stall i is made: none where it raises ILLEGAL. -/
def State.sqAccess (s : State) (i : Nat) (q : W64) (op : Sum Reg Capv) : Option State :=
  match op with
  | .inl d => (s.sqRead q (sqStall q)).map (fun v => s.wr i d v)
  | .inr v => s.sqWrite q (sqStall q) v

/-- R162: an access to a stall that runs on another core, or is in FAR or MISS, waits. -/
def StallState.squintWaits (x : StallState) : Bool := x == .running || x == .far || x == .miss

/-- R161, R162: MVSQ. -/
def State.mvsq (s : State) (i : Nat) (op : Sum Reg Capv) (insn : W32) : Res Unit :=
  let q := (s.stall i).squint
  let n := sqStall q
  let writable := decide (1 ≤ sqReg q ∧ sqReg q ≤ 0x0C)
  let named : Bool := decide (sqSpace q = 0) || (decide (sqSpace q = 1) && match op with
    | .inl _ => (s.specRead n (sqReg q)).isSome
    | .inr _ => writable)
  if s.enclosed n then s.plain vSquint
  else if s.coreOut (n / 8) ∨ ¬ named then s.plain vIllegal
  else if n ≠ i ∧ (s.stall n).state.squintWaits then
    .ok () (s.modStall i (fun t => { t with state := .far, squintReq := some { sel := q, op := op, insn := insn } }))
  else match s.sqAccess i q op with
    | none => s.plain vIllegal
    | some s => s.goOn i

/-- R161: MVSQ.R. -/
def execMvsqR (st : Ctx) (d a b : Reg) (s : State) : Out :=
  let i := st.val
  let w := encA 0x27 d a b 8
  issue i w (unlessIllegal (i == 32 || a != 0 || b != 0) (privileged i (fun s => s.mvsq i (.inl d) w))) s
/-- R161: MVSQ.W. -/
def execMvsqW (st : Ctx) (d a b : Reg) (s : State) : Out :=
  let i := st.val
  let w := encA 0x27 d a b 9
  issue i w (unlessIllegal (i == 32 || d != 0 || b != 0) (privileged i (fun s => s.mvsq i (.inr (s.rd i a)) w))) s

/-- R162, R226, R233: SQUINT_ACCESS: a RUNNING target is switched out at its next instruction boundary, the access that waits is
made, and its stall moves on; an ILLEGAL found now is taken when the stall next runs. -/
def execSquintAccess (st : StallId) (s : State) : Out :=
  let i := st.val
  match (s.stall i).squintReq with
  | none => .next s
  | some r =>
    let n := sqStall r.sel
    if (s.stall n).state = .far ∨ (s.stall n).state = .miss ∨ s.inFence n ∨ s.coreHeld (n / 8) ∨ s.coreHeld (i / 8) then .next s
    else
      let s := if (s.stall n).state = .running then s.modStall n (fun t => { t with state := .ready }) else s
      let bad : Exc := { vec := vIllegal, n := 0, faddr := 0, insn := r.insn, detail := 0 }
      .next (match (if s.coreOut (n / 8) then none else s.sqAccess i r.sel r.op) with
        | none => (s.modStall i (fun t => ({ t with squintReq := none, outcome := some bad }).wake)).groupHalt i
        | some s => (s.modStall i (fun t => ({ t.advance with squintReq := none }).wake)).groupHalt i)

/-! ## The scheduler (R167 to R169) -/

/-- R167: among the READY stalls of a core one of the highest priority; among equals the first after the stall that ran
last. -/
def State.pick (s : State) (c : Nat) : Option Nat :=
  let order := (List.range 8).map (fun k => 8 * c + ((s.core c).lastRan.val + 1 + k) % 8)
  (order.filter (fun i => (s.stall i).state == .ready)).foldl (fun (b : Option Nat) i =>
    match b with
    | none => some i
    | some j => if (s.stall j).prio.toNat < (s.stall i).prio.toNat then some i else some j) none

/-- R169: a stall is switched in; a WAIT that suspended it completes (R172). -/
def State.switchIn (s : State) (c i : Nat) : State :=
  let s := s.modCore c (fun k => { k with lastRan := Fin.ofNat 8 i, issued := false, ran := 0 })
  (s.modStall i (fun t => { t with state := .running })).endWait i

/-- R169: STALL_SWITCH: the scheduler of a core decides at an instruction boundary. -/
def execStallSwitch (core : Fin 4) (s : State) : Out :=
  let c := core.val
  if ¬ s.naveRuns ∨ s.coreDown c ∨ s.coreHeld c ∨ (s.core c).fence.isSome then .next s
  else match s.pick c with
    | none => .next s
    | some i =>
      match s.runningOn c with
      | none => .next (s.switchIn c i)
      | some r =>
        if (s.stall r).prio.toNat < (s.stall i).prio.toNat ∧ (s.core c).issued then
          .next ((s.modStall r (fun t => { t with state := .ready })).switchIn c i)
        else .next s

/-- R168: the running stall of a core has run its quantum while another of equal priority is READY. -/
def State.quantumOut (s : State) (c : Nat) : State :=
  match s.runningOn c with
  | none => s
  | some r =>
    if s.reg (aQuantum c) ≠ 0 ∧ s.othersReady r (fun x y => x == y) ∧ (s.core c).fence.isNone then
      s.modStall r (fun t => { t with state := .ready })
    else s

/-- R168: QUANTUM_EXPIRY. -/
def execQuantumExpiry (core : Fin 4) (s : State) : Out := .next (if s.naveRuns ∧ ¬ s.coreHeld core.val then s.quantumOut core.val else s)

/-- R146: MISS_DATA_ARRIVAL. -/
def execMissDataArrival (st : StallId) (s : State) : Out :=
  if (s.stall st.val).state = .miss ∧ ¬ s.coreHeld (st.val / 8) then .next ((s.modStall st.val Stall.wake).groupHalt st.val) else .next s

/-! ## Events (R170, R174, R249 to R252) -/

/-- The targets of a core. -/
def coreMask (c : Nat) : BitVec 32 := BitVec.ofNat 32 (255 * 256 ^ c)

/-- R170: EVENT_ARRIVAL: the oldest occurrence of event n on its way to a core arrives there. -/
def execEventArrival (n : Fin 64) (core : Fin 4) (s : State) : Out :=
  let mask := coreMask core.val
  let hit := fun (f : EvFlight) => f.n == n.val && f.targets &&& mask != 0
  if s.coreHeld core.val then .next s
  else match s.events.flight.findIdx? hit with
  | none => .next s
  | some k =>
    let f := s.events.flight.getD k { n := 0, targets := 0 }
    let rest := f.targets &&& ~~~ mask
    let flight := if rest = 0 then s.events.flight.eraseIdx k
                  else lmod s.events.flight k (fun f => { f with targets := rest })
    let s := { s with events := { s.events with flight := flight } }
    .next ((List.range 8).foldl (fun s j =>
      if bit f.targets (8 * core.val + j) then s.pend (8 * core.val + j) n.val else s) s)

/-- R251: a level source is asserted. -/
def State.levelOn (s : State) (n : Nat) : Bool := (n == 44 && bit s.events.levels 0) || (n == 45 && bit s.events.levels 1)

/-- R174, R251: the interval of limiter n ends. -/
def State.limiterEnd (s : State) (n : Nat) : State :=
  let again := decide (s.field (aLimit n) 15 0 ≠ 0)
  let set := fun (s : State) (run : Bool) =>
    { s with events := { s.events with running := putBit s.events.running n run, held := putBit s.events.held n false } }
  if bit s.events.running n then
    if bit s.events.held n then
      let s := set s again
      if 56 ≤ n then s.pend (vget s.events.swHeld (n - 56) 0).val n else s.deliver n
    else if s.levelOn n then (set s again).deliver n
    else set s false
  else if s.levelOn n ∧ ¬ again then s.deliver n
  else s

/-- R174, R251: LIMITER_INTERVAL_END; for a level source with LIMIT 0 it stands for a timer cycle. -/
def execLimiterIntervalEnd (n : Fin 64) (s : State) : Out := .next (if s.naveRuns then s.limiterEnd n.val else s)

end Sys2Proof.Machine
end

