-- ==== Sys2Proof/Machine/RegRows.lean ====
section
/-!
DEFINITION. Sys2Proof/Machine/RegRows.lean: the commands that access a register by its address (R5 to R13, R29, R35,
R36), and the crossing of islands (R23, R24).
-/
namespace Sys2Proof

/-- The size in bytes. -/
def AccSize.bytes : AccSize → Nat
  | .b1 => 1
  | .b2 => 2
  | .b4 => 4
  | .b8 => 8

/-- The context whose exception a refused access is; the debug module has none. -/
def Initiator.ctx : Initiator → Option Nat
  | .stall i => some i.val
  | .sacristy => some 32
  | .debug => none

end Sys2Proof

namespace Sys2Proof.Machine

/-- An initiator can put an access on the Nave's buses: a stall while its core is in service and its clock does not relock (R92),
the Sacristy core while the Nave die is up, the debug module, 4 bytes at a time, while the gate opens it (R590, R595). -/
def State.mayAccess (s : State) (w : Initiator) (n : Nat) : Bool :=
  match w with
  | .stall i => s.naveRuns && !s.coreDown (i.val / 8) && !s.holds92 (.core (Fin.ofNat 4 (i.val / 8)))
  | .sacristy => s.fw && s.naveUp
  | .debug => s.unitReady 22 && bit s.dbg.gate 0 && n == 4

/-- R222: a stall's register access begins after its earlier accesses are performed. -/
def State.rowBegin (s : State) (w : Initiator) : State :=
  match w with
  | .stall i => s.beginReg i.val
  | _ => s

/-- R5, R29, R297: the precise exception of a refused access, where its context is running; the word is not recorded,
since the command carries none (log 30). The Screen's refusal is an exception of a core only. -/
def State.rowExc (s : State) (w : Initiator) (x : Exc) : State :=
  match w.ctx with
  | some i => if s.canIssue i then s.settleExc i x else s
  | none => s

/-- The answer sets out for the initiator. -/
def State.rowAnswer (s : State) (w : Initiator) (a : Nat) (v : W64) : State :=
  match w with
  | .stall i => { s.answering i.val a with answer := v }
  | _ => { s with answer := v }

/-- What a register block is told of a row's access. -/
def State.rowReq (s : State) (w : Initiator) : Req :=
  { cls := (s.whoIs w).cls, enc := match w with
      | .stall i => s.enclosed i.val
      | _ => false }

/-- An access to register space: one to an island whose clock relocks has still to arrive (R92); then the Screen, then the gates
of R5, R29, R35 and R36, then the block. A refused read returns 0. -/
def State.rowAccess (s : State) (w : Initiator) (a n : Nat) (k : AccKind) (f : Req → State → Gate × W64 × State) : State :=
  if ¬ s.mayAccess w n ∨ s.target a ≠ .regs ∨ s.holds92 (islandOf a) then s
  else
    let s := s.rowBegin w
    let who := s.whoIs w
    let c := s.screenCheck who a k false
    if ¬ c.1.ok then
      match w with
      | .stall _ => State.rowExc { c.2 with answer := 0 } w (excOf vScreen a (c.1.info who.cls k false))
      | _ => { c.2 with answer := 0 }
    else
      let r := f (s.rowReq w) c.2
      match r.1 with
      | .bad => State.rowExc { r.2.2 with answer := 0 } w (excOf vMachine a (k.code * 64))
      | .hole => State.rowExc { r.2.2 with answer := 0 } w (excOf vMachine a (1 + k.code * 64))
      | _ => r.2.2.rowAnswer w a r.2.1

/-- A read of n bytes of register space. -/
def State.rowRead (s : State) (w : Initiator) (a n : Nat) : State :=
  s.rowAccess w a n .load (fun r s => s.regRead r a n)

/-- A write of n bytes of register space. -/
def State.rowWrite (s : State) (w : Initiator) (a n : Nat) (d : W64) : State :=
  s.rowAccess w a n .store (fun r s =>
    let x := s.regWrite r a n d
    (x.1, 0, x.2))

/-- R7: REGISTER_WRITE. -/
def execRegisterWrite (who : Initiator) (addr : BitVec 44) (size : AccSize) (data : BitVec 64) (s : State) : Out :=
  .next (s.rowWrite who addr.toNat size.bytes data)

/-- R8: RC_FIELD_READ. -/
def execRcFieldRead (who : Initiator) (addr : BitVec 44) (size : AccSize) (s : State) : Out :=
  .next (s.rowRead who addr.toNat size.bytes)

/-- R6: PAIR_LOW_READ. -/
def execPairLowRead (who : Initiator) (addr : BitVec 44) (s : State) : Out := .next (s.rowRead who addr.toNat 4)

/-- R6: PAIR_LOW_WRITE. -/
def execPairLowWrite (who : Initiator) (addr : BitVec 44) (data : BitVec 32) (s : State) : Out :=
  .next (s.rowWrite who addr.toNat 4 (data.zeroExtend 64))

/-- R6: PAIR_HIGH_WRITE. -/
def execPairHighWrite (who : Initiator) (addr : BitVec 44) (data : BitVec 32) (s : State) : Out :=
  .next (s.rowWrite who addr.toNat 4 (data.zeroExtend 64))

/-- R6: PAIR_WRITE_64. -/
def execPairWrite64 (who : Initiator) (addr : BitVec 44) (data : BitVec 64) (s : State) : Out :=
  .next (s.rowWrite who addr.toNat 8 data)

/-- R23, R24, R92: ISLAND_CROSSING: the oldest crossing between a stall and an island arrives, 2 to 4 destination cycles
after it left; an island whose clock relocks holds it. -/
def execIslandCrossing (st : Fin 32) (dst : Island) (cycles : Nat) (s : State) : Out :=
  if cycles < 2 ∨ 4 < cycles ∨ s.power.relocking.contains dst then .next s
  else .next { s with events := { s.events with crossings := s.events.crossings.erase (st.val, dst) } }

end Sys2Proof.Machine
end

