-- ==== Sys2Proof/Machine/Debug.lean ====
section
/-!
DEFINITION. Sys2Proof/Machine/Debug.lean: the TAP (R586 to R588) and the debug module: transfers, halting, stepping,
registers, memory, comparators and the message channel (R589 to R597).
-/
namespace Sys2Proof.Machine

/-! ## The TAP (R586 to R588) -/

/-- R588: the bank of a boundary cell: 24 balls of bank A, 16 of bank B, 20 of bank C and 4 of bank D, three cells each. -/
def cellBank (i : Nat) : Nat := if i < 72 then 0 else if i < 120 then 1 else if i < 180 then 2 else 3

/-- The TAP works while the Nave rails and its bank are powered. -/
def State.tapUp (s : State) : Bool := s.bankUp 3

/-- The TAP takes an instruction. -/
def State.tapSelect (s : State) (i : TapInstr) : State := { s with tap := { s.tap with ir := i } }

/-- R588: what the cells capture: 0 in an unpowered bank. -/
def State.cellCapture (s : State) (c : BitVec 192) : BitVec 192 :=
  (List.range 192).foldl (fun w i => if s.bankUp (cellBank i) then w else putBit w i false) c

/-- The boundary register captures, then takes what is shifted in, unless the gate closes it. -/
def State.tapCells (s : State) (i : TapInstr) (captured cells : BitVec 192) : State :=
  let s := s.tapSelect i
  if s.tapActs ≠ i then s else { s with tap := { s.tap with captured := s.cellCapture captured, cells := cells } }

/-- R42, R45, R56, R588: the level of ball NRST_OUT_N (ball 61), which the boundary register may drive; none: high
impedance, as while bank D is unpowered. -/
def State.nrstBall (s : State) : Option Bool := if ¬ s.bankUp 3 then none else (s.scanDrive 61).getD (some (bit s.pins 1))

/-- R586: the identification register. -/
def State.idRegister (s : State) : W32 :=
  BitVec.ofNat 32 (s.chip.naveRev.toNat % 16 * 2 ^ 28 + s.chip.variant.part.toNat * 2 ^ 12 + 0x2B5 * 2 + 1)

/-- R586: TAP_RESET. -/
def execTapReset (s : State) : Out := .next (s.tapSelect .idcode)
/-- R586: IDCODE. -/
def execIdcode (s : State) : Out :=
  .next (if s.tapUp then { s.tapSelect .idcode with answer := s.idRegister.zeroExtend 64 } else s)
/-- R586: SAMPLE_PRELOAD. -/
def execSamplePreload (captured preload : BitVec 192) (s : State) : Out :=
  .next (if s.tapUp then s.tapCells .samplePreload captured preload else s)
/-- R588: EXTEST. -/
def execExtest (captured drive : BitVec 192) (s : State) : Out :=
  .next (if s.tapUp then s.tapCells .extest captured drive else s)
/-- R586: CLAMP. -/
def execClamp (s : State) : Out := .next (if s.tapUp then s.tapSelect .clamp else s)
/-- R586: HIGHZ. -/
def execHighz (s : State) : Out := .next (if s.tapUp then s.tapSelect .highz else s)
/-- R589: DBG_XFER. -/
def execDbgXfer (s : State) : Out := .next (if s.tapUp then s.tapSelect .dbgXfer else s)
/-- R586: BYPASS. -/
def execBypass (s : State) : Out := .next (if s.tapUp then s.tapSelect .bypass else s)

/-! ## Outcomes (R589) -/

/-- The outcome of a debug access: STATUS, the data read, and the state. -/
structure DbgOut where
  /-- 0 OK, 1 BUSY, 2 DENIED, 3 ERROR. -/
  status : BitVec 2
  /-- DATA. -/
  data : W32
  /-- The state after it. -/
  st : State

/-- An access that is made. -/
def State.dbgOk (s : State) (data : W32 := 0) : DbgOut := ⟨0, data, s⟩
/-- An access that the gate forbids. -/
def State.dbgDenied (s : State) : DbgOut := ⟨2, 0, s⟩
/-- An access that ends in ERROR. -/
def State.dbgError (s : State) : DbgOut := ⟨3, 0, s⟩

/-! ## Halting, stepping and resuming (R591, R592) -/

/-- R591: the commands that name a stall. -/
inductive DbgCmd where
  | halt | resume | step
deriving DecidableEq, Repr

/-- R591, R593: RESUME; STEP runs one instruction of the stall whatever state it left. -/
def State.dbgResume (s : State) (n : Nat) (stepping : Bool) : State :=
  let t := s.stall n
  let pends : Bool := match t.waitFor with
    | some (_, m) => t.evpend &&& m &&& t.evmask != 0
    | none => false
  let next := match t.haltedFrom with
    | .stopped => if stepping then .ready else .stopped
    | .waiting => if stepping || pends || (s.intDue n).isSome then .ready else .waiting
    | _ => .ready
  s.modStall n (fun t => { t with state := next, stepping := stepping, bpSkip := t.haltCause == 3 })

/-- R591: a command on the stall of DBG_SEL. -/
def State.dbgCommand (s : State) (c : DbgCmd) : DbgOut :=
  let n := s.dbg.sel.val
  if s.dbgBarred n then s.dbgDenied
  else if s.coreDown (n / 8) then s.dbgError
  else match (s.stall n).state, c with
    | .off, _ | .lockdown, _ => s.dbgError
    | _, .halt => (s.haltStall n 1).dbgOk
    | .halted, .resume => (s.dbgResume n false).dbgOk
    | .halted, .step => (s.dbgResume n true).dbgOk
    | _, _ => s.dbgError

/-- R597: NAVE_RESET. -/
def State.dbgReset (s : State) (key : BitVec 16) : DbgOut :=
  if key = 0x5AC7 then (s.requestNaveReset 3).dbgOk else s.dbgOk

/-! ## Registers (R594) -/

/-- R594: the stall of DBG_SEL lets its registers be reached. -/
def State.dbgReach (s : State) : Bool :=
  (s.stall s.dbg.sel.val).state == .halted || (s.stall s.dbg.sel.val).state == .lockdown

/-- R594: READ; a selection that no register has ends in ERROR (log 31). -/
def State.dbgRegRead (s : State) : DbgOut :=
  let n := s.dbg.sel.val
  if s.dbgBarred n then s.dbgDenied
  else if ¬ s.dbgReach then s.dbgError
  else match s.sqRead (s.dbg.rsel.zeroExtend 64) n with
    | none => s.dbgError
    | some v => State.dbgOk { s with dbg := { s.dbg with rdata := v.bits, rtag := v.tag } }

/-- R594, R150: WRITE: tag 0, unless the bits are those the register holds. -/
def State.dbgRegWrite (s : State) : DbgOut :=
  let n := s.dbg.sel.val
  let q := s.dbg.rsel.zeroExtend 64
  if s.dbgBarred n then s.dbgDenied
  else if ¬ s.dbgReach then s.dbgError
  else match s.sqRead q n with
    | none => s.dbgError
    | some v =>
      match s.sqWrite q n ⟨s.dbg.rdata, v.tag && s.dbg.rdata == v.bits⟩ with
      | none => s.dbgError
      | some s => s.dbgOk

/-! ## Memory (R595) -/

/-- R595: the next address. -/
def State.dbgNext (s : State) : State := { s with dbg := { s.dbg with maddr := s.dbg.maddr + 4 } }

/-- R595: a read of DBG_MDATA. -/
def State.dbgMemRead (s : State) : DbgOut :=
  let a := s.dbg.maddr.toNat
  if a % 4 ≠ 0 then s.dbgError
  else
    let c := s.screenCheck (Who.dev 7) a .load false
    if ¬ c.1.ok then c.2.dbgError
    else match c.2.target a with
      | .regs =>
        let r := c.2.regRead { cls := 7, enc := false } a 4
        match r.1 with
        | .bad | .hole => r.2.2.dbgError
        | _ => State.dbgOk { r.2.2.dbgNext with dbg := { r.2.2.dbgNext.dbg with mtag := false } } (r.2.1.truncate 32)
      | t =>
        let r := c.2.readTarget .dma a 4
        match r.1 with
        | .error _ => r.2.dbgError
        | .ok bs =>
          let tag := t.isMem && r.2.tagAt a
          State.dbgOk { r.2.dbgNext with dbg := { r.2.dbgNext.dbg with mtag := tag } } (BitVec.ofNat 32 (ofBytes bs))

/-- R595, R125: a write of DBG_MDATA. -/
def State.dbgMemWrite (s : State) (d : W32) : DbgOut :=
  let a := s.dbg.maddr.toNat
  if a % 4 ≠ 0 then s.dbgError
  else
    let c := s.screenCheck (Who.dev 7) a .store false
    if ¬ c.1.ok then c.2.dbgError
    else match c.2.target a with
      | .none => c.2.dbgError
      | .regs =>
        let r := c.2.regWrite { cls := 7, enc := false } a 4 (d.zeroExtend 64)
        match r.1 with
        | .bad | .hole => r.2.dbgError
        | _ => r.2.dbgNext.dbgOk
      | _ => (c.2.writeTarget .dma a (toBytes 4 d.toNat) []).dbgNext.dbgOk

/-! ## The message channel (R596) -/

/-- R596: RING by the debugger. -/
def State.dbgRing (s : State) : DbgOut :=
  if s.dbg.outFull then s.dbgOk
  else (State.raise { s with dbg := { s.dbg with outFull := true } } 52).dbgOk

/-- R596: DBG_MSG_ACK. -/
def State.dbgAck (s : State) : DbgOut := State.dbgOk { s with dbg := { s.dbg with inFull := false } }

/-! ## The debug registers (table "Debug registers") -/

/-- A comparator by core and number. -/
def State.bp (s : State) (c i : Nat) : Bp := vget (vget s.dbg.bps c (Vector.replicate 6 { addr := 0, ctrl := 0 })) i { addr := 0, ctrl := 0 }
/-- Change a comparator. -/
def State.modBp (s : State) (c i : Nat) (f : Bp → Bp) : State :=
  { s with dbg := { s.dbg with bps := vmod s.dbg.bps c (fun v => vmod v i f) } }

/-- R13: DBG_BP_CTRL; a reserved KIND or SIZE keeps its field. -/
def Bp.setCtrl (b : Bp) (d : W32) : Bp :=
  let w := if bits d 2 0 ≤ 4 then putBits b.ctrl 2 0 (bits d 2 0) else b.ctrl
  let w := if bits d 9 4 ≤ 47 then putBits w 9 4 (bits d 9 4) else w
  { b with ctrl := putBits w 23 16 (bits d 23 16) }

/-- Register 0x40 and up: a word of a comparator: its core, number and word, where it exists. -/
def bpIndex (r : Nat) : Option (Nat × Nat × Nat) :=
  if 0x40 ≤ r ∧ r < 0xC0 ∧ (r - 0x40) % 0x20 < 24 ∧ r % 4 < 3 then some ((r - 0x40) / 0x20, (r - 0x40) % 0x20 / 4, r % 4)
  else none

/-- R591: DBG_STAT. -/
def State.dbgStat (s : State) : W32 :=
  let t := s.stall s.dbg.sel.val
  BitVec.ofNat 32 (t.state.code + 16 * t.haltCause.toNat)

/-- DBG_HALTED. -/
def State.dbgHalted (s : State) : W32 :=
  (List.range 32).foldl (fun w i => if (s.stall i).state == .halted then putBit w i true else w) 0

/-- A word of 128 bits. -/
def word128 (v : BitVec 128) (k : Nat) : W32 := BitVec.ofNat 32 (bits v (32 * k + 31) (32 * k))

/-- A read of a debug register. -/
def State.dbgGet (s : State) (r : Nat) : DbgOut :=
  if 0x11 ≤ r ∧ r ≤ 0x14 then s.dbgOk (word128 s.dbg.rdata (r - 0x11))
  else if 0x100 ≤ r ∧ r ≤ 0x103 then s.dbgOk (word128 s.dbg.msgOut (r - 0x100))
  else if 0x105 ≤ r ∧ r ≤ 0x108 then s.dbgOk (word128 s.dbg.msgIn (r - 0x105))
  else match r with
    | 0x000 => s.dbgOk s.dbg.gate
    | 0x001 => s.dbgOk (BitVec.ofNat 32 s.dbg.sel.val)
    | 0x003 => s.dbgOk s.dbgStat
    | 0x004 => s.dbgOk s.dbgHalted
    | 0x005 => s.dbgOk s.dbg.group
    | 0x010 => s.dbgOk s.dbg.rsel
    | 0x015 => s.dbgOk (BitVec.ofNat 32 s.dbg.rtag.toNat)
    | 0x020 => s.dbgOk (s.dbg.maddr.truncate 32)
    | 0x021 => s.dbgOk ((s.dbg.maddr >>> 32).truncate 32)
    | 0x022 => s.dbgMemRead
    | 0x023 => s.dbgOk (BitVec.ofNat 32 s.dbg.mtag.toNat)
    | 0x104 => s.dbgOk (BitVec.ofNat 32 (256 * s.dbg.outFull.toNat + 512 * s.dbg.inFull.toNat))
    | _ =>
      match bpIndex r with
      | some (c, i, 0) => s.dbgOk ((s.bp c i).addr.truncate 32)
      | some (c, i, 1) => s.dbgOk (((s.bp c i).addr >>> 32).truncate 32)
      | some (c, i, _) => s.dbgOk (s.bp c i).ctrl
      | none => s.dbgOk

/-- R591, R597: a write of DBG_CMD. -/
def State.dbgCmdWrite (s : State) (d : W32) : DbgOut :=
  match bits d 2 0 with
  | 1 => s.dbgCommand .halt
  | 2 => s.dbgCommand .resume
  | 3 => s.dbgCommand .step
  | 4 => s.dbgReset (BitVec.ofNat 16 (bits d 31 16))
  | _ => s.dbgOk

/-- A write of a debug register. -/
def State.dbgSet (s : State) (r : Nat) (d : W32) : DbgOut :=
  if 0x11 ≤ r ∧ r ≤ 0x14 then
    State.dbgOk { s with dbg := { s.dbg with rdata := putBits s.dbg.rdata (32 * (r - 0x11) + 31) (32 * (r - 0x11)) d.toNat } }
  else if 0x100 ≤ r ∧ r ≤ 0x103 then
    State.dbgOk { s with dbg := { s.dbg with msgOut := putBits s.dbg.msgOut (32 * (r - 0x100) + 31) (32 * (r - 0x100)) d.toNat } }
  else match r with
    | 0x001 => State.dbgOk { s with dbg := { s.dbg with sel := Fin.ofNat 32 (bits d 4 0) } }
    | 0x002 => s.dbgCmdWrite d
    | 0x005 => State.dbgOk { s with dbg := { s.dbg with group := d } }
    | 0x010 => State.dbgOk { s with dbg := { s.dbg with rsel := d &&& 0xFFE0 } }
    | 0x016 => if bits d 1 0 = 1 then s.dbgRegRead else if bits d 1 0 = 2 then s.dbgRegWrite else s.dbgOk
    | 0x020 => State.dbgOk { s with dbg := { s.dbg with maddr := putBits s.dbg.maddr 31 0 d.toNat } }
    | 0x021 => State.dbgOk { s with dbg := { s.dbg with maddr := putBits s.dbg.maddr 43 32 d.toNat } }
    | 0x022 => s.dbgMemWrite d
    | 0x104 => if bit d 0 then s.dbgRing else s.dbgOk
    | 0x109 => if bit d 0 then s.dbgAck else s.dbgOk
    | _ =>
      match bpIndex r with
      | some (c, i, 0) => State.dbgOk (s.modBp c i (fun b => { b with addr := putBits b.addr 31 0 d.toNat }))
      | some (c, i, 1) => State.dbgOk (s.modBp c i (fun b => { b with addr := putBits b.addr 63 32 d.toNat }))
      | some (c, i, _) => State.dbgOk (s.modBp c i (fun b => b.setCtrl d))
      | none => s.dbgOk

/-! ## The debugger's commands -/

/-- R587, R589: an access of the debugger: nothing reaches the module while boundary scan is closed or the module is not
in service; while the gate is closed it is DENIED; its outcome waits for the next capture. -/
def State.dbgAccess (s : State) (f : State → DbgOut) : State :=
  if ¬ s.tapUp ∨ ¬ bit s.dbg.gate 1 ∨ ¬ s.unitReady 22 then s
  else
    let o := if bit s.dbg.gate 0 then f s else s.dbgDenied
    { o.st with dbg := { o.st.dbg with status := o.status, data := o.data } }

/-- R589: DEBUG_TRANSFER_ACCESS: the capture loads the outcome of the previous access, then the access is made, or finds
that one still running. -/
def execDebugTransferAccess (op : BitVec 2) (reg : BitVec 14) (data : BitVec 32) (busy : Bool) (s : State) : Out :=
  if ¬ s.tapUp ∨ s.tapActs ≠ .dbgXfer then .next s
  else
    let s := { s with answer := BitVec.ofNat 64 (s.dbg.status.toNat * 2 ^ 46 + s.dbg.data.toNat) }
    .next (if op = 0 ∨ op = 3 then s
      else if busy then s.dbgAccess (fun s => ⟨1, 0, s⟩)
      else if op = 1 then s.dbgAccess (fun s => s.dbgGet reg.toNat)
      else s.dbgAccess (fun s => s.dbgSet reg.toNat data))

/-- R591: HALT. -/
def execHalt (s : State) : Out := .next (s.dbgAccess (fun s => s.dbgCommand .halt))
/-- R591: RESUME. -/
def execResume (s : State) : Out := .next (s.dbgAccess (fun s => s.dbgCommand .resume))
/-- R591: STEP. -/
def execStep (s : State) : Out := .next (s.dbgAccess (fun s => s.dbgCommand .step))
/-- R597: DBG_CMD_NAVE_RESET. -/
def execDbgCmdNaveReset (key : BitVec 16) (s : State) : Out := .next (s.dbgAccess (fun s => s.dbgReset key))
/-- R594: DBG_REG_READ. -/
def execDbgRegRead (s : State) : Out := .next (s.dbgAccess State.dbgRegRead)
/-- R594: DBG_REG_WRITE. -/
def execDbgRegWrite (s : State) : Out := .next (s.dbgAccess State.dbgRegWrite)
/-- R595: DBG_MEM_READ. -/
def execDbgMemRead (s : State) : Out := .next (s.dbgAccess State.dbgMemRead)
/-- R595: DBG_MEM_WRITE. -/
def execDbgMemWrite (data : BitVec 32) (s : State) : Out := .next (s.dbgAccess (fun s => s.dbgMemWrite data))
/-- R596: DBG_MSG_RING. -/
def execDbgMsgRing (s : State) : Out := .next (s.dbgAccess State.dbgRing)
/-- R596: DBG_MSG_ACK. -/
def execDbgMsgAck (s : State) : Out := .next (s.dbgAccess State.dbgAck)
/-- R596: DBG_SW_RING. -/
def execDbgSwRing (s : State) : Out := .next (s.unitAct 22 State.swRing)
/-- R596: DBG_SW_ACK. -/
def execDbgSwAck (s : State) : Out := .next (s.unitAct 22 State.swAck)

end Sys2Proof.Machine
end

