-- ==== Sys2Proof/Machine/Boot.lean ====
section
/-!
DEFINITION. Sys2Proof/Machine/Boot.lean: what the Nave boot ROM does with the image that the boot descriptor names (R508). The
spec gives its effect and not its instructions: the model makes it one event of the clock (log 49).
-/
namespace Sys2Proof.Machine

/-- R508: the memory that holds a range is READY: Close SRAM, or channels whose training is done. -/
def State.memReady (s : State) (pa n : Nat) : Bool :=
  (transfer pa n).all (fun p => [p.1, p.1 + p.2 - 1].all (fun a => match s.target a with
    | .sram => s.unitReady 16
    | .dram => true
    | _ => false))

/-- R508: ST0 of NC0 copies bytes with its own loads and stores, line by line. -/
def State.bootCopy (s : State) : Nat → Nat → Nat → Nat → Res Unit
  | 0, _, _, _ => .ok () s
  | fuel + 1, src, dst, n =>
    if n = 0 then .ok () s
    else
      (s.loadAt 0 ((s.stall 0).mode .load false) src (min 64 n)).bind (fun r s =>
        (s.storeAt 0 ((s.stall 0).mode .store false) none dst r.1 false).bind (fun _ s =>
          (s.drain 0).bootCopy fuel (src + min 64 n) (dst + min 64 n) (n - min 64 n)))

/-- R508: once the memory that holds LOAD is READY, the payload is copied there, FENCE.INS runs, and PCC becomes the boot root with
cursor LOAD + ENTRY; S0 stays as it was. An exception of the copy is ST0's own: with TSBR 0 the stall enters lockdown. -/
def State.bootRom (s : State) : State :=
  let d := s.winRead 0xFB00 64
  let n := leField d 8 4
  let dst := leField d 16 8
  if ¬ s.power.booting ∨ ¬ s.canIssue 0 ∨ ¬ s.memReady dst n then s
  else
    let s := { s with power := { s.power with booting := false } }
    match s.bootCopy (n / 64 + 1) (leField d 0 8) dst n with
    | .exc x s => s.settleExc 0 x
    | .ok _ s =>
      (s.fencedIns 0).modStall 0 (fun t => { t with pcc := Cap.setAddr Cap.bootRoot (BitVec.ofNat 64 (dst + leField d 12 4)) })

end Sys2Proof.Machine
end

