-- ==== Sys2Proof/Machine/Clock.lean ====
section
/-!
DEFINITION. Sys2Proof/Machine/Clock.lean: one cycle of the timer island, 10 ns, in which the counters of the part advance
(R95, R99, R168, R231, R251, R422, R430, R435, R465, R508, R541). The table has no row for it: it is what a step does while no command
waits (log 1).
-/
namespace Sys2Proof.Machine

/-- R422, R429, R430: one cycle of the general timers: each sees the states and the source events of its beginning. -/
def State.gtTicks (s : State) : State :=
  (List.range 16).foldl (fun t n => s.gtCycle t n) { s with tmr := { s.tmr with trig := 0 } }

/-- R435: one cycle of the lamp channels. -/
def State.lpTicks (s : State) : State := (List.range 8).foldl (fun s n => s.lpCycle n) s

/-- R541: core cycles in one timer cycle. -/
def State.coreRate (s : State) (c : Fin 4) : Nat :=
  if s.power.relocking.contains (.core c) then 0 else islandMhz (.core c) s.sac.derate.clocks.toNat / 100

/-- R168, R231: one timer cycle of a core: CYCLE, and RUN of the stall that is RUNNING, which its quantum may end. -/
def State.coreTick (s : State) (c : Fin 4) : State :=
  if s.coreDown c.val then s
  else
    let k := s.coreRate c
    let s := s.modCore c.val (fun x => { x with cycle := x.cycle + BitVec.ofNat 64 k })
    match s.runningOn c.val with
    | none => s
    | some i =>
      let s := s.modStall i (fun t => { t with run := t.run + BitVec.ofNat 64 k })
      let s := s.modCore c.val (fun x => { x with ran := x.ran + k })
      if (s.reg (aQuantum c.val)).toNat ≤ (s.core c.val).ran then s.quantumOut c.val else s

/-- R91: Sacristy cycles in one timer cycle: two from the crystal; from the internal oscillator, within ±3 % of that, which whole
cycles show as one, two or three (log 1). -/
def State.sacCycles (s : State) : W64 × State :=
  if s.power.refGood then (2, s)
  else
    let (w, s) := s.drawWord
    (1 + w.umod 3, s)

/-- R231: one timer cycle of the Sacristy core. -/
def State.sacCoreTick (s : State) : State :=
  if s.power.sacPhase = .porHeld then s
  else
    let (k, s) := s.sacCycles
    let s := { s with sac := { s.sac with coreCycle := s.sac.coreCycle + k } }
    if (s.stall 32).state = .running then s.modStall 32 (fun t => { t with run := t.run + k }) else s

/-- R251: a level source with LIMIT 0 produces one occurrence in every timer cycle; one on its way stands for those that
follow it (log 1). -/
def State.levelTick (s : State) (n : Nat) : State :=
  if s.levelOn n ∧ s.field (aLimit n) 15 0 = 0 ∧ ¬ bit s.events.running n ∧ ¬ s.events.flight.any (fun f => f.n == n) then s.deliver n
  else s

/-- The counters of the Nave's timers and cores in one timer cycle, after which the GPIO balls are seen (R585); the boot ROM's copy
takes place in one of them (R508). -/
def State.naveTick (s : State) : State :=
  let s := if s.unitReady 17 then s.gtTicks.lpTicks.edTicks else s
  let s := ([0, 1, 2, 3] : List (Fin 4)).foldl (fun s c => s.coreTick c) s
  ((s.levelTick 44).levelTick 45).gpioSample.bootRom

/-- One cycle of the timer island. -/
def State.tick (s : State) : State :=
  if s.power.sacPhase = .porHeld then s
  else
    let s := { s with fresh := [], wset := [], tmr := { s.tmr with cycles := s.tmr.cycles + 1 } }
    let s := s.ttSacTick.sacCoreTick.vigilTick
    let s := if s.naveUp then s.ttTick else s
    if s.naveRuns then s.naveTick else s

end Sys2Proof.Machine
end

