-- ==== Sys2Proof/Machine/Atomics.lean ====
section
/-!
DEFINITION. Sys2Proof/Machine/Atomics.lean: the atomic instructions of OP 0x38 (R217 to R220).
-/
namespace Sys2Proof.Machine

/-- R5, R29, R219: the MACHINE_CHECK kind of an atomic at a target other than Close SRAM and fitted DRAM, and for the
Sacristy core other than its RAM: where there is no target, or one that does not take the size, that is what it reports. -/
def State.atomicGate (s : State) (i pa n : Nat) : Option Nat :=
  if i = 32 then
    match s.sacTarget pa with
    | .ram => none
    | .none => some 1
    | .bells _ | .regs => if regSized pa n then some 2 else some 0
    | .nave na => some ((s.gateAt true na n).getD 2)
    | _ => some 2
  else if (s.target pa).isMem then none
  else some ((s.gateAt true pa n).getD 2)

/-- R217, R219, R220: the access, once it has passed its checks: the old bytes and tag go to `f`, which answers the new
bytes and tag, if any, and the value of D. -/
def State.atomicAt (s : State) (i : Nat) (m : Mode) (attr : BitVec 3) (ea pa n : Nat) (d : Reg)
    (f : List Byte → Bool → Option (List Byte × Bool) × Capv) : Res Unit :=
  match s.atomicGate i pa n with
  | some k => s.fail vMachine ea (m.machine k)
  | none =>
    if i = 32 then
      let k := sacSpace + pa
      let e := s.sacRamErrors pa n
      if e.1 then e.2.fail vMachine ea (m.machine 3)
      else
        let r := f (e.2.readMem k n) (e.2.tagAt k)
        let s := match r.1 with
          | some (bs, t) => e.2.sacStorePart pa bs t
          | none => e.2
        (s.wr i d r.2).goOn i
    else
      let s := (s.beginReg i).settleOthers i pa n
      let x := s.readTarget (.atL2 attr) pa n
      match x.1 with
      | .error k => x.2.fail vMachine ea (m.machine k)
      | .ok old =>
        let r := f old (x.2.tagAt pa)
        let s := match r.1 with
          | some (bs, t) => x.2.writeTarget (.atL2 attr) pa bs (storeTags t)
          | none => x.2
        (s.wr i d r.2).goOn i

/-- R218: the checks of an atomic of n bytes, then the access. -/
def State.atomic (s : State) (i : Nat) (d a : Reg) (n : Nat) (value : Option (Capv × Reg))
    (f : List Byte → Bool → Option (List Byte × Bool) × Capv) : Res Unit :=
  let c := s.rd i a
  let ea := (Cap.addr c).toNat
  let perms := if value.isSome then [permLoad, permStore, permLoadCap] else [permLoad, permStore]
  match accFault c a.toNat 1 false perms ea n n value with
  | some x => .exc x s
  | none =>
    if s.breakAt i [2, 3, 4] ea n then s.fail vBreak 0 0
    else
      let m := (s.stall i).mode .atomic false
      let memOnly : Option Exc := match value with
        | some (v, r) => if v.tag then some (accExc vPerm ea (capDetail r.toNat true 1 false)) else none
        | none => none
      if i = 32 then
        match memOnly, s.sacTagged ea with
        | some x, false => .exc x s
        | _, _ => s.atomicAt i m 0 ea ea n d f
      else (s.prepare i m memOnly ea n).bind (fun ps s =>
        match ps with
        | [p] => s.atomicAt i m p.attr ea p.pa n d f
        | _ => s.atomicAt i m 0 ea ea n d f)

/-- R217: an atomic of 8 bytes, or of 4 with W: `g` answers the new value from the old one, B and D. -/
def amo (st : Ctx) (d a b : Reg) (w : Bool) (hi : BitVec 6) (fn : Nat) (g : W64 → W64 → W64 → Option W64)
    (g32 : W32 → W32 → W32 → Option W32) (s : State) : Out :=
  let i := st.val
  issue i (encA 0x38 d a b (fn + 16 * w.toNat + 32 * hi.toNat)) (unlessIllegal (hi != 0) (fun s =>
    let x := s.rdInt i b
    let y := s.rdInt i d
    if w then
      s.atomic i d a 4 none (fun bs _ =>
        let old := BitVec.ofNat 32 (ofBytes bs)
        ((g32 old (x.truncate 32) (y.truncate 32)).map (fun v => (toBytes 4 v.toNat, false)), Cap.ofInt (old.signExtend 64)))
    else
      s.atomic i d a 8 none (fun bs _ =>
        let old := BitVec.ofNat 64 (ofBytes bs)
        ((g old x y).map (fun v => (toBytes 8 v.toNat, false)), Cap.ofInt old)))) s

/-- R217: AMOSWAP. -/
def execAmoswap (st : Ctx) (d a b : Reg) (w : Bool) (hi : BitVec 6) (s : State) : Out :=
  amo st d a b w hi 0 (fun _ x _ => some x) (fun _ x _ => some x) s
/-- R217: AMOADD. -/
def execAmoadd (st : Ctx) (d a b : Reg) (w : Bool) (hi : BitVec 6) (s : State) : Out :=
  amo st d a b w hi 1 (fun o x _ => some (o + x)) (fun o x _ => some (o + x)) s
/-- R217: AMOAND. -/
def execAmoand (st : Ctx) (d a b : Reg) (w : Bool) (hi : BitVec 6) (s : State) : Out :=
  amo st d a b w hi 2 (fun o x _ => some (o &&& x)) (fun o x _ => some (o &&& x)) s
/-- R217: AMOOR. -/
def execAmoor (st : Ctx) (d a b : Reg) (w : Bool) (hi : BitVec 6) (s : State) : Out :=
  amo st d a b w hi 3 (fun o x _ => some (o ||| x)) (fun o x _ => some (o ||| x)) s
/-- R217: AMOXOR. -/
def execAmoxor (st : Ctx) (d a b : Reg) (w : Bool) (hi : BitVec 6) (s : State) : Out :=
  amo st d a b w hi 4 (fun o x _ => some (o ^^^ x)) (fun o x _ => some (o ^^^ x)) s
/-- R217: AMOMIN. -/
def execAmomin (st : Ctx) (d a b : Reg) (w : Bool) (hi : BitVec 6) (s : State) : Out :=
  amo st d a b w hi 5 (fun o x _ => some (if o.slt x then o else x)) (fun o x _ => some (if o.slt x then o else x)) s
/-- R217: AMOMAX. -/
def execAmomax (st : Ctx) (d a b : Reg) (w : Bool) (hi : BitVec 6) (s : State) : Out :=
  amo st d a b w hi 6 (fun o x _ => some (if o.slt x then x else o)) (fun o x _ => some (if o.slt x then x else o)) s
/-- R217: AMOMINU. -/
def execAmominu (st : Ctx) (d a b : Reg) (w : Bool) (hi : BitVec 6) (s : State) : Out :=
  amo st d a b w hi 7 (fun o x _ => some (if o.ult x then o else x)) (fun o x _ => some (if o.ult x then o else x)) s
/-- R217: AMOMAXU. -/
def execAmomaxu (st : Ctx) (d a b : Reg) (w : Bool) (hi : BitVec 6) (s : State) : Out :=
  amo st d a b w hi 8 (fun o x _ => some (if o.ult x then x else o)) (fun o x _ => some (if o.ult x then x else o)) s
/-- R217: CAS. -/
def execCas (st : Ctx) (d a b : Reg) (w : Bool) (hi : BitVec 6) (s : State) : Out :=
  amo st d a b w hi 9 (fun o x y => if o = y then some x else none) (fun o x y => if o = y then some x else none) s

/-- R217, R218: CAS.C: all 129 bits are compared, and B's 129 bits stored. -/
def execCasC (st : Ctx) (d a b : Reg) (w : Bool) (hi : BitVec 6) (s : State) : Out :=
  let i := st.val
  issue i (encA 0x38 d a b (10 + 16 * w.toNat + 32 * hi.toNat)) (unlessIllegal (w || hi != 0) (fun s =>
    let v := s.rd i b
    let want := s.rd i d
    s.atomic i d a 16 (some (v, b)) (fun bs tag =>
      let old := capOfBytes bs tag
      (if old = want then some (toBytes 16 v.bits.toNat, v.tag) else none, old)))) s

end Sys2Proof.Machine
end

