-- ==== Sys2Proof/Machine/Flags.lean ====
section
/-!
DEFINITION. Sys2Proof/Machine/Flags.lean: floating-point values, rounding and the flags (R203 to R210), and the
operations of R211 to R213, on bits alone.
-/
namespace Sys2Proof.Machine

/-! ## Formats and values (R203) -/

/-- A binary format: exponent bits and fraction bits. -/
structure Fmt where
  /-- Exponent bits. -/
  eb : Nat
  /-- Fraction bits. -/
  mb : Nat
deriving DecidableEq, Repr

/-- binary32. -/
def f32 : Fmt := ⟨8, 23⟩
/-- binary64. -/
def f64 : Fmt := ⟨11, 52⟩
/-- bfloat16. -/
def fbf : Fmt := ⟨8, 7⟩

/-- The exponent bias. -/
def Fmt.bias (f : Fmt) : Nat := 2 ^ (f.eb - 1) - 1
/-- The exponent of MIN_NORMAL. -/
def Fmt.emin (f : Fmt) : Int := 1 - (f.bias : Int)
/-- The place of the sign. -/
def Fmt.signBit (f : Fmt) : Nat := 2 ^ (f.eb + f.mb)
/-- Infinity. -/
def Fmt.inf (f : Fmt) : Nat := (2 ^ f.eb - 1) * 2 ^ f.mb
/-- MAX_FINITE. -/
def Fmt.maxFinite (f : Fmt) : Nat := f.inf - 1
/-- R207: the default NaN. -/
def Fmt.nan (f : Fmt) : Nat := f.inf + 2 ^ (f.mb - 1)
/-- A sign applied to a magnitude's bits. -/
def Fmt.signed (f : Fmt) (neg : Bool) (b : Nat) : Nat := if neg then f.signBit + b else b

/-- What bits stand for: a NaN, an infinity, or `±m × 2^e` (zero where m is 0). -/
inductive FVal where
  | nan (signalling : Bool)
  | inf (neg : Bool)
  | fin (neg : Bool) (m : Nat) (e : Int)
deriving DecidableEq, Repr

/-- R203, R210: the value of bits; `daz` takes a subnormal as a zero. -/
def Fmt.value (f : Fmt) (daz : Bool) (b : Nat) : FVal :=
  let neg := b / f.signBit % 2 == 1
  let x := b / 2 ^ f.mb % 2 ^ f.eb
  let m := b % 2 ^ f.mb
  if x = 2 ^ f.eb - 1 then (if m = 0 then .inf neg else .nan (decide (m < 2 ^ (f.mb - 1))))
  else if x = 0 then .fin neg (if daz then 0 else m) (f.emin - f.mb)
  else .fin neg (2 ^ f.mb + m) ((x : Int) - f.bias - f.mb)

/-! ## Flags (R205, R206) -/

/-- A result and the flags it raises: NV 16, DZ 8, OF 4, UF 2, NX 1. -/
structure FRes where
  /-- The bits. -/
  val : Nat
  /-- The flags. -/
  flags : Nat
deriving DecidableEq, Repr

/-- R207: the default NaN with NV. -/
def Fmt.invalid (f : Fmt) : FRes := ⟨f.nan, 16⟩
/-- A NaN operand: the default NaN, NV where one is signalling. -/
def Fmt.nanOf (f : Fmt) (signalling : Bool) : FRes := ⟨f.nan, if signalling then 16 else 0⟩

/-! ## Rounding (R204, R206, R210) -/

/-- The number of bits of a number. -/
def bitLen (m : Nat) : Nat := if m = 0 then 0 else m.log2 + 1

/-- R204: whether a magnitude q with the rest r of 2^k is rounded up; modes 0 RNE, 1 RTZ, 2 RDN, 3 RUP. -/
def roundsUp (rm : Nat) (neg : Bool) (q r k : Nat) : Bool :=
  match rm with
  | 0 => decide (2 ^ k < 2 * r) || (decide (2 * r = 2 ^ k) && decide (q % 2 = 1) && decide (r ≠ 0))
  | 1 => false
  | 2 => neg && decide (r ≠ 0)
  | _ => !neg && decide (r ≠ 0)

/-- A magnitude `m × 2^e` rounded to a multiple of 2^qe: the multiple, and whether it is inexact. -/
def roundTo (rm : Nat) (neg : Bool) (m : Nat) (e qe : Int) : Nat × Bool :=
  if qe ≤ e then (m * 2 ^ (e - qe).toNat, false)
  else
    let k := (qe - e).toNat
    let q := m / 2 ^ k
    let r := m % 2 ^ k
    (if roundsUp rm neg q r k then q + 1 else q, decide (r ≠ 0))

/-- R206: the result of an overflow. -/
def Fmt.overflow (f : Fmt) (rm : Nat) (neg : Bool) : FRes :=
  let big : Bool := match rm with
    | 0 => true
    | 1 => false
    | 2 => neg
    | _ => !neg
  ⟨f.signed neg (if big then f.inf else f.maxFinite), 5⟩

/-- R204 to R206, R208, R210: the exact value `±m × 2^e` delivered in a format; `ftz` flushes a tiny result. -/
def Fmt.round (f : Fmt) (rm : Nat) (ftz neg : Bool) (m : Nat) (e : Int) : FRes :=
  if m = 0 then ⟨f.signed neg 0, 0⟩
  else
    let top := e + bitLen m - 1
    let free := (roundTo rm neg m e (top - f.mb)).1
    let tiny := decide (top < f.emin) && !(decide (top = f.emin - 1) && decide (free = 2 ^ (f.mb + 1)))
    if tiny ∧ ftz then ⟨f.signed neg 0, 3⟩
    else
      let qe := max (top - f.mb) (f.emin - f.mb)
      let r := roundTo rm neg m e qe
      let big := decide (r.1 = 2 ^ (f.mb + 1))
      let q := if big then 2 ^ f.mb else r.1
      let qe := if big then qe + 1 else qe
      let x := if q < 2 ^ f.mb then 0 else (qe + f.mb + f.bias).toNat
      if 2 ^ f.eb - 1 ≤ x then f.overflow rm neg
      else ⟨f.signed neg (x * 2 ^ f.mb + q % 2 ^ f.mb), (if tiny ∧ r.2 then 2 else 0) + r.2.toNat⟩

/-! ## Arithmetic (R206 to R208, R211) -/

/-- A value with its sign changed. -/
def FVal.negate : FVal → FVal
  | .nan s => .nan s
  | .inf n => .inf (!n)
  | .fin n m e => .fin (!n) m e

/-- A value is a signalling NaN. -/
def FVal.snan : FVal → Bool
  | .nan s => s
  | _ => false

/-- A signed number of units of 2^e. -/
def unitsAt (neg : Bool) (m : Nat) (e at' : Int) : Int :=
  let v : Int := (m * 2 ^ (e - at').toNat : Nat)
  if neg then -v else v

/-- R208: the sum of two finite values. -/
def Fmt.sum (f : Fmt) (rm : Nat) (ftz n1 : Bool) (m1 : Nat) (e1 : Int) (n2 : Bool) (m2 : Nat) (e2 : Int) : FRes :=
  let e := min e1 e2
  let v := unitsAt n1 m1 e1 e + unitsAt n2 m2 e2 e
  if v = 0 then ⟨f.signed (if m1 = 0 ∧ m2 = 0 ∧ n1 = n2 then n1 else rm == 2) 0, 0⟩
  else f.round rm ftz (decide (v < 0)) v.natAbs e

/-- FADD of two values. -/
def Fmt.add (f : Fmt) (rm : Nat) (ftz : Bool) (a b : FVal) : FRes :=
  match a, b with
  | .nan s, y => f.nanOf (s || y.snan)
  | x, .nan s => f.nanOf (s || x.snan)
  | .inf n, .inf k => if n = k then ⟨f.signed n f.inf, 0⟩ else f.invalid
  | .inf n, _ => ⟨f.signed n f.inf, 0⟩
  | _, .inf n => ⟨f.signed n f.inf, 0⟩
  | .fin n1 m1 e1, .fin n2 m2 e2 => f.sum rm ftz n1 m1 e1 n2 m2 e2

/-- R207: an exact product; none for 0 × ∞. -/
def mulVal (a b : FVal) : Option FVal :=
  match a, b with
  | .nan s, y => some (.nan (s || y.snan))
  | x, .nan s => some (.nan (s || x.snan))
  | .inf n, .inf k => some (.inf (n != k))
  | .inf n, .fin k m _ => if m = 0 then none else some (.inf (n != k))
  | .fin k m _, .inf n => if m = 0 then none else some (.inf (n != k))
  | .fin n1 m1 e1, .fin n2 m2 e2 => some (.fin (n1 != n2) (m1 * m2) (e1 + e2))

/-- A value delivered in a format. -/
def Fmt.deliver (f : Fmt) (rm : Nat) (ftz : Bool) : FVal → FRes
  | .nan s => f.nanOf s
  | .inf n => ⟨f.signed n f.inf, 0⟩
  | .fin n m e => f.round rm ftz n m e

/-- FMUL of two values. -/
def Fmt.mul (f : Fmt) (rm : Nat) (ftz : Bool) (a b : FVal) : FRes :=
  match mulVal a b with
  | none => f.invalid
  | some p => f.deliver rm ftz p

/-- R211: an FMA form: the product, negated where `np`, plus the addend, with one rounding. -/
def Fmt.fma (f : Fmt) (rm : Nat) (ftz np : Bool) (a b c : FVal) : FRes :=
  match mulVal a b with
  | none => f.invalid
  | some p => f.add rm ftz (if np then p.negate else p) c

/-- FDIV of two values. -/
def Fmt.div (f : Fmt) (rm : Nat) (ftz : Bool) (a b : FVal) : FRes :=
  match a, b with
  | .nan s, y => f.nanOf (s || y.snan)
  | x, .nan s => f.nanOf (s || x.snan)
  | .inf _, .inf _ => f.invalid
  | .inf n, .fin k _ _ => ⟨f.signed (n != k) f.inf, 0⟩
  | .fin n _ _, .inf k => ⟨f.signed (n != k) 0, 0⟩
  | .fin n1 m1 e1, .fin n2 m2 e2 =>
    if m2 = 0 then (if m1 = 0 then f.invalid else ⟨f.signed (n1 != n2) f.inf, 8⟩)
    else
      let k := f.mb + 4 + bitLen m2
      let q := m1 * 2 ^ k / m2
      let rest := decide (m1 * 2 ^ k % m2 ≠ 0)
      f.round rm ftz (n1 != n2) (2 * q + rest.toNat) (e1 - e2 - k - 1)

/-- The integer square root, from bit k - 1 down. -/
def sqrtBits (n : Nat) : Nat → Nat → Nat
  | 0, r => r
  | k + 1, r => sqrtBits n k (if (r + 2 ^ k) * (r + 2 ^ k) ≤ n then r + 2 ^ k else r)

/-- FSQRT of a value. -/
def Fmt.sqrt (f : Fmt) (rm : Nat) (ftz : Bool) (a : FVal) : FRes :=
  match a with
  | .nan s => f.nanOf s
  | .inf n => if n then f.invalid else ⟨f.inf, 0⟩
  | .fin n m e =>
    if m = 0 then ⟨f.signed n 0, 0⟩
    else if n then f.invalid
    else
      let odd := (e % 2).toNat
      let k := f.mb + 4
      let x := m * 2 ^ (odd + 2 * k)
      let r := sqrtBits x (bitLen x / 2 + 1) 0
      f.round rm ftz false (2 * r + (decide (r * r ≠ x)).toNat) ((e - odd) / 2 - k - 1)

/-! ## Comparison (R207, R208, R213) -/

/-- A value as a number of units of 2^e, an infinity as a number above all. -/
def cmpFin (n1 : Bool) (m1 : Nat) (e1 : Int) (n2 : Bool) (m2 : Nat) (e2 : Int) : Ordering :=
  let e := min e1 e2
  compare (unitsAt n1 m1 e1 e) (unitsAt n2 m2 e2 e)

/-- The order of two values that are no NaN; zeros are equal. -/
def FVal.order (a b : FVal) : Ordering :=
  match a, b with
  | .inf n, .inf k => if n = k then .eq else if n then .lt else .gt
  | .inf n, _ => if n then .lt else .gt
  | _, .inf n => if n then .gt else .lt
  | .fin n1 m1 e1, .fin n2 m2 e2 => cmpFin n1 m1 e1 n2 m2 e2
  | _, _ => .eq

/-- A value is a NaN. -/
def FVal.isNan : FVal → Bool
  | .nan _ => true
  | _ => false

/-- The sign of a value. -/
def FVal.neg : FVal → Bool
  | .nan _ => false
  | .inf n => n
  | .fin n _ _ => n

/-- FEQ. -/
def fEq (a b : FVal) : FRes :=
  if a.isNan || b.isNan then ⟨0, if a.snan || b.snan then 16 else 0⟩ else ⟨(a.order b == .eq).toNat, 0⟩
/-- FLT. -/
def fLt (a b : FVal) : FRes := if a.isNan || b.isNan then ⟨0, 16⟩ else ⟨(a.order b == .lt).toNat, 0⟩
/-- FLE. -/
def fLe (a b : FVal) : FRes := if a.isNan || b.isNan then ⟨0, 16⟩ else ⟨(a.order b != .gt).toNat, 0⟩

/-- The bits of an exact value of the same format. -/
def Fmt.bitsOf (f : Fmt) (a : FVal) : Nat := (f.deliver 0 false a).val

/-- R207, R208: FMIN, or FMAX where `big`. -/
def Fmt.minMax (f : Fmt) (big : Bool) (a b : FVal) : FRes :=
  if a.snan || b.snan then f.invalid
  else if a.isNan then (if b.isNan then ⟨f.nan, 0⟩ else ⟨f.bitsOf b, 0⟩)
  else if b.isNan then ⟨f.bitsOf a, 0⟩
  else
    let aLess : Bool := match a.order b with
      | .lt => true
      | .gt => false
      | .eq => a.neg
    ⟨f.bitsOf (if aLess != big then a else b), 0⟩

/-- R213: FCLASS. -/
def Fmt.classOf (f : Fmt) (b : Nat) : Nat :=
  match f.value false b with
  | .inf n => if n then 0x001 else 0x080
  | .nan s => if s then 0x100 else 0x200
  | .fin n m _ =>
    if m = 0 then (if n then 0x008 else 0x010)
    else if m < 2 ^ f.mb then (if n then 0x004 else 0x020)
    else (if n then 0x002 else 0x040)

/-- R213: A with a sign. -/
def Fmt.withSign (f : Fmt) (a : Nat) (neg : Bool) : Nat := f.signed neg (a % f.signBit)
/-- The sign bit of bits. -/
def Fmt.signOf (f : Fmt) (a : Nat) : Bool := a / f.signBit % 2 == 1

/-! ## Conversions (R207, R212) -/

/-- R212: a value of a format delivered in another. -/
def Fmt.convert (dst : Fmt) (rm : Nat) (ftz : Bool) (a : FVal) : FRes := dst.deliver rm ftz a

/-- R207, R212: a value as an integer between lo and hi. -/
def toInt (rm : Nat) (lo hi : Int) (a : FVal) : Int × Nat :=
  match a with
  | .nan _ => (hi, 16)
  | .inf n => (if n then lo else hi, 16)
  | .fin n m e =>
    let r := roundTo rm n m e 0
    let v : Int := if n then -(r.1 : Int) else r.1
    if v < lo then (lo, 16) else if hi < v then (hi, 16) else (v, r.2.toNat)

/-- R212: an integer delivered in a format. -/
def Fmt.ofInt (f : Fmt) (rm : Nat) (ftz : Bool) (v : Int) : FRes := f.round rm ftz (decide (v < 0)) v.natAbs 0

end Sys2Proof.Machine
end

