-- ==== Sys2Proof/Machine/Fp.lean ====
section
/-!
DEFINITION. Sys2Proof/Machine/Fp.lean: the floating-point instructions of OP 0x30 to 0x36 (R204, R209 to R214).
-/
namespace Sys2Proof.Machine

/-- R204: the rounding mode of an RM field; none where it is reserved. -/
def Stall.rm (t : Stall) (rm : BitVec 3) : Option Nat :=
  if rm.toNat ≤ 3 then some rm.toNat else if rm = 7 then some (bits t.fpcr 1 0) else none

/-- R210: FPCR.FPD. -/
def Stall.fpd (t : Stall) : Bool := bit t.fpcr 12

/-- R205, R209: a result is written and its flags gathered, unless a trap for one of them is enabled. -/
def State.fpWrite (s : State) (i : Nat) (d : Reg) (v : W64) (flags : Nat) : Res Unit :=
  let t := s.stall i
  if BitVec.ofNat 5 flags &&& t.fpcr.extractLsb' 4 5 ≠ 0 then s.fail vFp 0 flags
  else ((s.modStall i (fun t => { t with fpsr := t.fpsr ||| BitVec.ofNat 32 flags })).wrInt i d v).goOn i

/-- The format of OP 0x30 and 0x31, or of FN[8]. -/
def fmtOf (sgl : Bool) : Fmt := if sgl then f32 else f64

/-- The value that a register holds in a format (R203, R210). -/
def State.fpVal (s : State) (i : Nat) (f : Fmt) (r : Reg) : FVal :=
  f.value (s.stall i).fpd ((s.rdInt i r).toNat % 2 ^ (1 + f.eb + f.mb))

/-- R211: an arithmetic instruction: mode, flush, format and the three operands. -/
def fpArith (st : Ctx) (d a b : Reg) (sgl : Bool) (rm : BitVec 3) (fn : Nat) (exact one : Bool)
    (f : Fmt → Nat → Bool → FVal → FVal → FVal → FRes) (s : State) : Out :=
  let i := st.val
  issue i (encA (if sgl then 0x31 else 0x30) d a b (fn + 256 * rm.toNat))
    (unlessIllegal (i == 32 || (one && b != 0) || (exact && rm != 0)) (fun s =>
      match (s.stall i).rm rm with
      | none => s.plain vIllegal
      | some k =>
        let m := fmtOf sgl
        let r := f m k (s.stall i).fpd (s.fpVal i m a) (s.fpVal i m b) (s.fpVal i m d)
        s.fpWrite i d (BitVec.ofNat 64 r.val) r.flags)) s

/-- R211: FADD. -/
def execFadd (st : Ctx) (d a b : Reg) (sgl : Bool) (rm : BitVec 3) (s : State) : Out :=
  fpArith st d a b sgl rm 0x0 false false (fun f k z x y _ => f.add k z x y) s
/-- R211: FSUB. -/
def execFsub (st : Ctx) (d a b : Reg) (sgl : Bool) (rm : BitVec 3) (s : State) : Out :=
  fpArith st d a b sgl rm 0x1 false false (fun f k z x y _ => f.add k z x y.negate) s
/-- R211: FMUL. -/
def execFmul (st : Ctx) (d a b : Reg) (sgl : Bool) (rm : BitVec 3) (s : State) : Out :=
  fpArith st d a b sgl rm 0x2 false false (fun f k z x y _ => f.mul k z x y) s
/-- R211: FDIV. -/
def execFdiv (st : Ctx) (d a b : Reg) (sgl : Bool) (rm : BitVec 3) (s : State) : Out :=
  fpArith st d a b sgl rm 0x3 false false (fun f k z x y _ => f.div k z x y) s
/-- R211: FSQRT. -/
def execFsqrt (st : Ctx) (d a b : Reg) (sgl : Bool) (rm : BitVec 3) (s : State) : Out :=
  fpArith st d a b sgl rm 0x4 false true (fun f k z x _ _ => f.sqrt k z x) s
/-- R211: FMIN. -/
def execFmin (st : Ctx) (d a b : Reg) (sgl : Bool) (rm : BitVec 3) (s : State) : Out :=
  fpArith st d a b sgl rm 0x5 true false (fun f _ _ x y _ => f.minMax false x y) s
/-- R211: FMAX. -/
def execFmax (st : Ctx) (d a b : Reg) (sgl : Bool) (rm : BitVec 3) (s : State) : Out :=
  fpArith st d a b sgl rm 0x6 true false (fun f _ _ x y _ => f.minMax true x y) s
/-- R211: FMA. -/
def execFma (st : Ctx) (d a b : Reg) (sgl : Bool) (rm : BitVec 3) (s : State) : Out :=
  fpArith st d a b sgl rm 0x8 false false (fun f k z x y w => f.fma k z false x y w) s
/-- R211: FMS. -/
def execFms (st : Ctx) (d a b : Reg) (sgl : Bool) (rm : BitVec 3) (s : State) : Out :=
  fpArith st d a b sgl rm 0x9 false false (fun f k z x y w => f.fma k z false x y w.negate) s
/-- R211: FNMA. -/
def execFnma (st : Ctx) (d a b : Reg) (sgl : Bool) (rm : BitVec 3) (s : State) : Out :=
  fpArith st d a b sgl rm 0xa false false (fun f k z x y w => f.fma k z true x y w) s
/-- R211: FNMS. -/
def execFnms (st : Ctx) (d a b : Reg) (sgl : Bool) (rm : BitVec 3) (s : State) : Out :=
  fpArith st d a b sgl rm 0xb false false (fun f k z x y w => f.fma k z true x y w.negate) s

/-- R212: a conversion: mode, flush and the integer in A give a value and flags. -/
def fpConv (st : Ctx) (d a b : Reg) (rm : BitVec 3) (fn : Nat) (exact : Bool) (f : Nat → Bool → W64 → W64 × Nat) (s : State) : Out :=
  let i := st.val
  issue i (encA 0x32 d a b (fn + 256 * rm.toNat)) (unlessIllegal (i == 32 || b != 0 || (exact && rm != 0)) (fun s =>
    match (s.stall i).rm rm with
    | none => s.plain vIllegal
    | some k =>
      let r := f k (s.stall i).fpd (s.rdInt i a)
      s.fpWrite i d r.1 r.2)) s

/-- The value of the low bits of a word in a format. -/
def lowVal (f : Fmt) (daz : Bool) (x : W64) : FVal := f.value daz (x.toNat % 2 ^ (1 + f.eb + f.mb))
/-- R212: a format to another. -/
def cvtF (src dst : Fmt) (k : Nat) (z : Bool) (x : W64) : W64 × Nat :=
  let r := dst.convert k z (lowVal src z x)
  (BitVec.ofNat 64 r.val, r.flags)
/-- R212: a format to an integer between lo and hi, sign-extended or within 64 bits. -/
def cvtI (src : Fmt) (lo hi : Int) (k : Nat) (z : Bool) (x : W64) : W64 × Nat :=
  let r := toInt k lo hi (lowVal src z x)
  (BitVec.ofInt 64 r.1, r.2)
/-- R212: an integer to a format. -/
def cvtN (dst : Fmt) (signed : Bool) (k : Nat) (z : Bool) (x : W64) : W64 × Nat :=
  let r := dst.ofInt k z (if signed then x.toInt else (x.toNat : Int))
  (BitVec.ofNat 64 r.val, r.flags)

/-- R212: fcvtSD. -/
def execFcvtSD (st : Ctx) (d a b : Reg) (rm : BitVec 3) (s : State) : Out := fpConv st d a b rm 0x0 false (cvtF f64 f32) s
/-- R212: fcvtDS. -/
def execFcvtDS (st : Ctx) (d a b : Reg) (rm : BitVec 3) (s : State) : Out := fpConv st d a b rm 0x1 true (cvtF f32 f64) s
/-- R212: fcvtBfS. -/
def execFcvtBfS (st : Ctx) (d a b : Reg) (rm : BitVec 3) (s : State) : Out := fpConv st d a b rm 0x2 false (cvtF f32 fbf) s
/-- R212: fcvtSBf. -/
def execFcvtSBf (st : Ctx) (d a b : Reg) (rm : BitVec 3) (s : State) : Out := fpConv st d a b rm 0x3 true (cvtF fbf f32) s
/-- R212: fcvtLD. -/
def execFcvtLD (st : Ctx) (d a b : Reg) (rm : BitVec 3) (s : State) : Out := fpConv st d a b rm 0x10 false (cvtI f64 (-2 ^ 63) (2 ^ 63 - 1)) s
/-- R212: fcvtLuD. -/
def execFcvtLuD (st : Ctx) (d a b : Reg) (rm : BitVec 3) (s : State) : Out := fpConv st d a b rm 0x11 false (cvtI f64 0 (2 ^ 64 - 1)) s
/-- R212: fcvtWD. -/
def execFcvtWD (st : Ctx) (d a b : Reg) (rm : BitVec 3) (s : State) : Out := fpConv st d a b rm 0x12 false (cvtI f64 (-2 ^ 31) (2 ^ 31 - 1)) s
/-- R212: fcvtWuD. -/
def execFcvtWuD (st : Ctx) (d a b : Reg) (rm : BitVec 3) (s : State) : Out := fpConv st d a b rm 0x13 false (cvtI f64 0 (2 ^ 32 - 1)) s
/-- R212: fcvtLS. -/
def execFcvtLS (st : Ctx) (d a b : Reg) (rm : BitVec 3) (s : State) : Out := fpConv st d a b rm 0x14 false (cvtI f32 (-2 ^ 63) (2 ^ 63 - 1)) s
/-- R212: fcvtLuS. -/
def execFcvtLuS (st : Ctx) (d a b : Reg) (rm : BitVec 3) (s : State) : Out := fpConv st d a b rm 0x15 false (cvtI f32 0 (2 ^ 64 - 1)) s
/-- R212: fcvtWS. -/
def execFcvtWS (st : Ctx) (d a b : Reg) (rm : BitVec 3) (s : State) : Out := fpConv st d a b rm 0x16 false (cvtI f32 (-2 ^ 31) (2 ^ 31 - 1)) s
/-- R212: fcvtWuS. -/
def execFcvtWuS (st : Ctx) (d a b : Reg) (rm : BitVec 3) (s : State) : Out := fpConv st d a b rm 0x17 false (cvtI f32 0 (2 ^ 32 - 1)) s
/-- R212: fcvtDL. -/
def execFcvtDL (st : Ctx) (d a b : Reg) (rm : BitVec 3) (s : State) : Out := fpConv st d a b rm 0x20 false (cvtN f64 true) s
/-- R212: fcvtDLu. -/
def execFcvtDLu (st : Ctx) (d a b : Reg) (rm : BitVec 3) (s : State) : Out := fpConv st d a b rm 0x21 false (cvtN f64 false) s
/-- R212: fcvtSL. -/
def execFcvtSL (st : Ctx) (d a b : Reg) (rm : BitVec 3) (s : State) : Out := fpConv st d a b rm 0x22 false (cvtN f32 true) s
/-- R212: fcvtSLu. -/
def execFcvtSLu (st : Ctx) (d a b : Reg) (rm : BitVec 3) (s : State) : Out := fpConv st d a b rm 0x23 false (cvtN f32 false) s

/-- R213: an instruction of OP 0x33. -/
def fpCmp (st : Ctx) (d a b : Reg) (sgl : Bool) (hi : BitVec 2) (fn : Nat) (one : Bool) (f : Fmt → Bool → Nat → Nat → FRes) (s : State) : Out :=
  let i := st.val
  issue i (encA 0x33 d a b (fn + 256 * sgl.toNat + 512 * hi.toNat))
    (unlessIllegal (i == 32 || hi != 0 || (one && b != 0)) (fun s =>
      let m := fmtOf sgl
      let w := 2 ^ (1 + m.eb + m.mb)
      let r := f m (s.stall i).fpd ((s.rdInt i a).toNat % w) ((s.rdInt i b).toNat % w)
      s.fpWrite i d (BitVec.ofNat 64 r.val) r.flags)) s

/-- R213: FEQ. -/
def execFeq (st : Ctx) (d a b : Reg) (sgl : Bool) (hi : BitVec 2) (s : State) : Out :=
  fpCmp st d a b sgl hi 0 false (fun f z x y => fEq (f.value z x) (f.value z y)) s
/-- R213: FLT. -/
def execFlt (st : Ctx) (d a b : Reg) (sgl : Bool) (hi : BitVec 2) (s : State) : Out :=
  fpCmp st d a b sgl hi 1 false (fun f z x y => fLt (f.value z x) (f.value z y)) s
/-- R213: FLE. -/
def execFle (st : Ctx) (d a b : Reg) (sgl : Bool) (hi : BitVec 2) (s : State) : Out :=
  fpCmp st d a b sgl hi 2 false (fun f z x y => fLe (f.value z x) (f.value z y)) s
/-- R213: FCLASS. -/
def execFclass (st : Ctx) (d a b : Reg) (sgl : Bool) (hi : BitVec 2) (s : State) : Out :=
  fpCmp st d a b sgl hi 3 true (fun f _ x _ => ⟨f.classOf x, 0⟩) s
/-- R213: FSGNJ. -/
def execFsgnj (st : Ctx) (d a b : Reg) (sgl : Bool) (hi : BitVec 2) (s : State) : Out :=
  fpCmp st d a b sgl hi 4 false (fun f _ x y => ⟨f.withSign x (f.signOf y), 0⟩) s
/-- R213: FSGNJN. -/
def execFsgnjn (st : Ctx) (d a b : Reg) (sgl : Bool) (hi : BitVec 2) (s : State) : Out :=
  fpCmp st d a b sgl hi 5 false (fun f _ x y => ⟨f.withSign x (!f.signOf y), 0⟩) s
/-- R213: FSGNJX. -/
def execFsgnjx (st : Ctx) (d a b : Reg) (sgl : Bool) (hi : BitVec 2) (s : State) : Out :=
  fpCmp st d a b sgl hi 6 false (fun f _ x y => ⟨f.withSign x (f.signOf x != f.signOf y), 0⟩) s

/-- R213: a load-immediate instruction: the immediate shifted up. -/
def fpImm (st : Ctx) (d a : Reg) (imm : BitVec 16) (op sh : Nat) (s : State) : Out :=
  let i := st.val
  issue i (encI op d a imm) (unlessIllegal (i == 32 || a != 0) (fun s =>
    (s.wrInt i d (BitVec.ofNat 64 (imm.toNat * 2 ^ sh))).goOn i)) s

/-- R213: FLI.S. -/
def execFliS (st : Ctx) (d a : Reg) (imm : BitVec 16) (s : State) : Out := fpImm st d a imm 0x35 16 s
/-- R213: FLI.D. -/
def execFliD (st : Ctx) (d a : Reg) (imm : BitVec 16) (s : State) : Out := fpImm st d a imm 0x36 48 s

end Sys2Proof.Machine
end

