-- ==== Sys2Proof/Machine/Grant.lean ====
section
/-!
DEFINITION. Sys2Proof/Machine/Grant.lean: GRANT, which issues and revokes grants (R137, R138, R142).
-/
namespace Sys2Proof.Machine

/-- R137: what GRANT asks for: the fields of its integer operand. -/
structure GrantReq where
  /-- Requester node. -/
  node : Byte
  /-- LOAD requested. -/
  load : Bool
  /-- STORE requested. -/
  store : Bool
  /-- INDEX. -/
  index : BitVec 16
deriving DecidableEq, Repr

/-- R137: the fields of the operand. -/
def grantReq (v : W64) : GrantReq :=
  { node := v.extractLsb' 0 8, load := bit v 8, store := bit v 9, index := v.extractLsb' 16 16 }

/-- R137 check 8: the leaf of the page that maps an address; no A or D is set (log 29). -/
def State.grantLeaf (s : State) (i va : Nat) : Res W64 :=
  let m : Mode := { kind := .load, user := false, guarded := false, keyed := false }
  if 2 ^ 48 ≤ va then s.fail vPageNp va 0xC0
  else
    let k := s.tlbLook i va
    match k.1 with
    | some e => .ok e.leaf k.2
    | none =>
      match k.2.walkRoot i m false va with
      | .ok w s => .ok w.1 s
      | .exc x s => .exc { x with detail := x.detail ||| 0xC0 } s

/-- R137 checks 8 and 9: the physical base of a range of n bytes at the source's base. -/
def State.grantPage (s : State) (i base n : Nat) (q : GrantReq) : Res Nat :=
  if ¬ (s.stall i).xlt then .ok base s
  else (s.grantLeaf i base).bind (fun p s =>
    if 2 ^ pteSize p < base % 2 ^ pteSize p + n then s.fail vPageNp base 0xC0
    else if (q.load ∧ ¬ bit p 2) ∨ (q.store ∧ ¬ bit p 3) then s.fail vPageRights base 0xC0
    else .ok (ptePa p + base % 2 ^ pteSize p) s)

/-- R137 check 10: a physical range lies in Close SRAM or fitted DRAM and touches no sealed partition. -/
def State.grantable (s : State) (pa n : Nat) : Bool :=
  (s.target pa).isMem && s.target (pa + n - 1) == s.target pa && !s.touchesSealed pa n

/-- R137: the entry that a grant writes; GEN stays. -/
def grantEntry (e : GrantEntry) (pa n : Nat) (q : GrantReq) : GrantEntry :=
  { lo := BitVec.ofNat 64 (pa + q.node.toNat * 2 ^ 48),
    hi := BitVec.ofNat 64 (n - 1 + e.gen.toNat * 2 ^ 32 + 2 ^ 40 + q.load.toNat * 2 ^ 42 + q.store.toNat * 2 ^ 43) }

/-- R365: the offer of a grant. -/
def grantOffer (q : GrantReq) (cursor : W64) (n : Nat) : Frame :=
  Frame.make 1 0x10 q.node (toBytes 8 cursor.toNat ++ toBytes 4 (n - 1) ++ [BitVec.ofNat 8 (q.load.toNat + 2 * q.store.toNat)])

/-- R137, R138: GRANT with a kind-0 source. Check 12 reads the entry; where the ring switch cannot read it (poison, a sealed range,
no memory at the table) the spec names no outcome, and the model takes the check to have failed: FAR_EXPORT (DESIGN CHOICE, log 42). -/
def State.grantIssue (s : State) (i : Nat) (d a : Reg) (c : Capv) (q : GrantReq) : Res Unit :=
  let n := (Cap.top c - Cap.base c).toNat
  let base := (Cap.base c).toNat
  let refuse := fun (s : State) => (s.fail vFarExport 0 q.node.toNat : Res Unit)
  if ¬ Cap.has c permGrant ∨ (q.load ∧ ¬ Cap.has c permLoad) ∨ (q.store ∧ ¬ Cap.has c permStore) then s.failA vPerm a
  else if ¬ q.load ∧ ¬ q.store then s.failA vPerm a
  else if Cap.has c permNoExport then refuse s
  else if n = 0 ∨ 2 ^ 32 < n then refuse s
  else (s.grantPage i base n q).bind (fun pa s =>
    if ¬ s.grantable pa n then refuse s
    else if ¬ s.grantEn ∨ s.ring.node = some q.node then refuse s
    else if s.grantCount ≤ q.index.toNat then refuse s
    else
      let r := s.grantRead q.index.toNat
      match r.1 with
      | none => refuse r.2
      | some e =>
        let s := r.2
        if e.state ≠ 0 then refuse s
        else
          let s := s.grantWrite q.index.toNat (grantEntry e pa n q)
          let receipt := Cap.receipt q.index s.grantEpoch e.gen
          let s := (s.wr i d receipt).modStall i Stall.advance
          .ok () (s.sendReliable (grantOffer q (Cap.addr receipt) n)))

/-- R142: the entry after a revocation. -/
def GrantEntry.revoke (e : GrantEntry) : GrantEntry :=
  if e.gen = 0xFF then { e with hi := putBits e.hi 41 40 2 }
  else { e with hi := putBits (putBits e.hi 39 32 (e.gen.toNat + 1)) 41 40 0 }

/-- R142: GRANT with a kind-4 source. RING_GRANT_CTRL says that EN enables GRANT, and R142 names no such condition: the model
revokes whatever EN is (DESIGN CHOICE, log 42). -/
def State.grantRevoke (s : State) (i : Nat) (d : Reg) (c : Capv) : Res Unit :=
  let index := bits (Cap.addr c) 63 48
  let s :=
    if bits (Cap.addr c) 47 40 ≠ s.grantEpoch.toNat ∨ s.grantCount ≤ index then s
    else
      let r := s.grantRead index
      match r.1 with
      | some e =>
        if e.state = 1 ∧ e.gen.toNat = bits (Cap.addr c) 39 32 then r.2.grantWrite index e.revoke else r.2
      | none => r.2
  (s.wr i d Cap.null).goOn i

/-- R137, R142, R200: GRANT. -/
def grantOp (st : Ctx) (d a b : Reg) (s : State) : Out :=
  let i := st.val
  issue i (encA 0x27 d a b 0x10) (unlessIllegal (i == 32) (privileged i (fun s =>
    let c := s.rd i a
    if ¬ c.tag then s.failA vTag a
    else if Cap.kind c = 0 then s.grantIssue i d a c (grantReq (s.rdInt i b))
    else if Cap.kind c = 4 then s.grantRevoke i d c
    else s.failA vKind a))) s

/-- R137: GRANT_ISSUE. -/
def execGrantIssue (st : Ctx) (d a b : Reg) (s : State) : Out := grantOp st d a b s
/-- R142: GRANT_REVOKE. -/
def execGrantRevoke (st : Ctx) (d a b : Reg) (s : State) : Out := grantOp st d a b s

end Sys2Proof.Machine
end

