-- ==== Sys2Proof/Machine/IntOps.lean ====
section
/-!
DEFINITION. Sys2Proof/Machine/IntOps.lean: the integer instructions of OP 0x01 to 0x0C (R188 to R190).
-/
namespace Sys2Proof.Machine

/-! ## Operations on words of n bits (R188, R189) -/

/-- A shift amount: the low bits of B. -/
def amount {n : Nat} (y : BitVec n) : Nat := y.toNat % n
/-- SLL. -/
def opSll {n : Nat} (x y : BitVec n) : BitVec n := x <<< amount y
/-- SRL. -/
def opSrl {n : Nat} (x y : BitVec n) : BitVec n := x >>> amount y
/-- SRA. -/
def opSra {n : Nat} (x y : BitVec n) : BitVec n := x.sshiftRight (amount y)
/-- ROR. -/
def opRor {n : Nat} (x y : BitVec n) : BitVec n := x.rotateRight (amount y)
/-- R189: DIV. -/
def opDiv {n : Nat} (x y : BitVec n) : BitVec n := if y = 0 then BitVec.allOnes n else x.sdiv y
/-- R189: DIVU. -/
def opDivu {n : Nat} (x y : BitVec n) : BitVec n := if y = 0 then BitVec.allOnes n else x.udiv y
/-- R189: REM. -/
def opRem {n : Nat} (x y : BitVec n) : BitVec n := if y = 0 then x else x.srem y
/-- R189: REMU. -/
def opRemu {n : Nat} (x y : BitVec n) : BitVec n := if y = 0 then x else x.umod y
/-- R189: CLZ. -/
def opClz {n : Nat} (x _y : BitVec n) : BitVec n := BitVec.ofNat n (if x = 0 then n else n - 1 - x.toNat.log2)
/-- R189: CTZ. -/
def opCtz {n : Nat} (x _y : BitVec n) : BitVec n := BitVec.ofNat n (((List.range n).find? (fun k => x.getLsbD k)).getD n)
/-- POPC. -/
def opPopc {n : Nat} (x _y : BitVec n) : BitVec n := BitVec.ofNat n (popCount x)
/-- MULH. -/
def opMulh (x y : W64) : W64 := ((x.signExtend 128 * y.signExtend 128) >>> 64).truncate 64
/-- MULHU. -/
def opMulhu (x y : W64) : W64 := ((x.zeroExtend 128 * y.zeroExtend 128) >>> 64).truncate 64

/-! ## OP 0x01 (R188) -/

/-- R188: an operation that takes no W form; `one` is set where B must be 0. -/
def intX (st : Ctx) (d a b : Reg) (w : Bool) (fn : Nat) (one : Bool) (f : W64 → W64 → W64) (s : State) : Out :=
  issue st.val (encA 1 d a b (fn + 1024 * w.toNat))
    (unlessIllegal (w || (one && b != 0)) (fun s =>
      (s.wrInt st.val d (f (s.rdInt st.val a) (s.rdInt st.val b))).goOn st.val)) s

/-- R188: an operation with a W form: `f` on 64 bits, `g` on the low 32. -/
def intW (st : Ctx) (d a b : Reg) (w : Bool) (fn : Nat) (one : Bool) (f : W64 → W64 → W64) (g : W32 → W32 → W32) (s : State) : Out :=
  issue st.val (encA 1 d a b (fn + 1024 * w.toNat))
    (unlessIllegal (one && b != 0) (fun s =>
      let x := s.rdInt st.val a
      let y := s.rdInt st.val b
      (s.wrInt st.val d (if w then (g (x.truncate 32) (y.truncate 32)).signExtend 64 else f x y)).goOn st.val)) s

/-- R188: ADD. -/
def execAdd (st : Ctx) (d a b : Reg) (w : Bool) (s : State) : Out := intW st d a b w 0x0 false (· + ·) (· + ·) s
/-- R188: SUB. -/
def execSub (st : Ctx) (d a b : Reg) (w : Bool) (s : State) : Out := intW st d a b w 0x1 false (· - ·) (· - ·) s
/-- R188: AND. -/
def execAndOp (st : Ctx) (d a b : Reg) (w : Bool) (s : State) : Out := intX st d a b w 0x2 false (· &&& ·) s
/-- R188: OR. -/
def execOrOp (st : Ctx) (d a b : Reg) (w : Bool) (s : State) : Out := intX st d a b w 0x3 false (· ||| ·) s
/-- R188: XOR. -/
def execXorOp (st : Ctx) (d a b : Reg) (w : Bool) (s : State) : Out := intX st d a b w 0x4 false (· ^^^ ·) s
/-- R188: ANDN. -/
def execAndn (st : Ctx) (d a b : Reg) (w : Bool) (s : State) : Out := intX st d a b w 0x5 false (fun x y => x &&& ~~~ y) s
/-- R188: SLL. -/
def execSll (st : Ctx) (d a b : Reg) (w : Bool) (s : State) : Out := intW st d a b w 0x6 false opSll opSll s
/-- R188: SRL. -/
def execSrl (st : Ctx) (d a b : Reg) (w : Bool) (s : State) : Out := intW st d a b w 0x7 false opSrl opSrl s
/-- R188: SRA. -/
def execSra (st : Ctx) (d a b : Reg) (w : Bool) (s : State) : Out := intW st d a b w 0x8 false opSra opSra s
/-- R188: ROR. -/
def execRor (st : Ctx) (d a b : Reg) (w : Bool) (s : State) : Out := intW st d a b w 0x9 false opRor opRor s
/-- R188: SLT. -/
def execSlt (st : Ctx) (d a b : Reg) (w : Bool) (s : State) : Out := intX st d a b w 0xa false (fun x y => boolW (x.slt y)) s
/-- R188: SLTU. -/
def execSltu (st : Ctx) (d a b : Reg) (w : Bool) (s : State) : Out := intX st d a b w 0xb false (fun x y => boolW (x.ult y)) s
/-- R188: MIN. -/
def execMinOp (st : Ctx) (d a b : Reg) (w : Bool) (s : State) : Out := intX st d a b w 0xc false (fun x y => if x.slt y then x else y) s
/-- R188: MAX. -/
def execMaxOp (st : Ctx) (d a b : Reg) (w : Bool) (s : State) : Out := intX st d a b w 0xd false (fun x y => if x.slt y then y else x) s
/-- R188: MINU. -/
def execMinu (st : Ctx) (d a b : Reg) (w : Bool) (s : State) : Out := intX st d a b w 0xe false (fun x y => if x.ult y then x else y) s
/-- R188: MAXU. -/
def execMaxu (st : Ctx) (d a b : Reg) (w : Bool) (s : State) : Out := intX st d a b w 0xf false (fun x y => if x.ult y then y else x) s
/-- R188: MUL. -/
def execMul (st : Ctx) (d a b : Reg) (w : Bool) (s : State) : Out := intW st d a b w 0x10 false (· * ·) (· * ·) s
/-- R188: MULH. -/
def execMulh (st : Ctx) (d a b : Reg) (w : Bool) (s : State) : Out := intX st d a b w 0x11 false opMulh s
/-- R188: MULHU. -/
def execMulhu (st : Ctx) (d a b : Reg) (w : Bool) (s : State) : Out := intX st d a b w 0x12 false opMulhu s
/-- R188: DIV. -/
def execDiv (st : Ctx) (d a b : Reg) (w : Bool) (s : State) : Out := intW st d a b w 0x14 false opDiv opDiv s
/-- R188: DIVU. -/
def execDivu (st : Ctx) (d a b : Reg) (w : Bool) (s : State) : Out := intW st d a b w 0x15 false opDivu opDivu s
/-- R188: REM. -/
def execRem (st : Ctx) (d a b : Reg) (w : Bool) (s : State) : Out := intW st d a b w 0x16 false opRem opRem s
/-- R188: REMU. -/
def execRemu (st : Ctx) (d a b : Reg) (w : Bool) (s : State) : Out := intW st d a b w 0x17 false opRemu opRemu s
/-- R188: CLZ. -/
def execClz (st : Ctx) (d a b : Reg) (w : Bool) (s : State) : Out := intW st d a b w 0x18 true opClz opClz s
/-- R188: CTZ. -/
def execCtz (st : Ctx) (d a b : Reg) (w : Bool) (s : State) : Out := intW st d a b w 0x19 true opCtz opCtz s
/-- R188: POPC. -/
def execPopc (st : Ctx) (d a b : Reg) (w : Bool) (s : State) : Out := intW st d a b w 0x1a true opPopc opPopc s
/-- R188: SEXT.B. -/
def execSextB (st : Ctx) (d a b : Reg) (w : Bool) (s : State) : Out := intX st d a b w 0x1b true (fun x _ => (x.truncate 8).signExtend 64) s
/-- R188: SEXT.H. -/
def execSextH (st : Ctx) (d a b : Reg) (w : Bool) (s : State) : Out := intX st d a b w 0x1c true (fun x _ => (x.truncate 16).signExtend 64) s
/-- R188: SEXT.W. -/
def execSextW (st : Ctx) (d a b : Reg) (w : Bool) (s : State) : Out := intX st d a b w 0x1d true (fun x _ => (x.truncate 32).signExtend 64) s
/-- R188: ZEXT.W. -/
def execZextW (st : Ctx) (d a b : Reg) (w : Bool) (s : State) : Out := intX st d a b w 0x1e true (fun x _ => (x.truncate 32).zeroExtend 64) s

/-! ## OP 0x02 to 0x0C (R190) -/

/-- R190: an operation on A and the sign-extended immediate. -/
def intI (st : Ctx) (d a : Reg) (imm : BitVec 16) (op : Nat) (f : W64 → W64 → W64) (s : State) : Out :=
  issue st.val (encI op d a imm) (fun s => (s.wrInt st.val d (f (s.rdInt st.val a) (imm16 imm))).goOn st.val) s

/-- R190: ADDI. -/
def execAddi (st : Ctx) (d a : Reg) (imm : BitVec 16) (s : State) : Out := intI st d a imm 2 (· + ·) s
/-- R190: ANDI. -/
def execAndi (st : Ctx) (d a : Reg) (imm : BitVec 16) (s : State) : Out := intI st d a imm 3 (· &&& ·) s
/-- R190: ORI. -/
def execOri (st : Ctx) (d a : Reg) (imm : BitVec 16) (s : State) : Out := intI st d a imm 4 (· ||| ·) s
/-- R190: XORI. -/
def execXori (st : Ctx) (d a : Reg) (imm : BitVec 16) (s : State) : Out := intI st d a imm 5 (· ^^^ ·) s
/-- R190: SLTI. -/
def execSlti (st : Ctx) (d a : Reg) (imm : BitVec 16) (s : State) : Out := intI st d a imm 6 (fun x y => boolW (x.slt y)) s
/-- R190: SLTIU. -/
def execSltiu (st : Ctx) (d a : Reg) (imm : BitVec 16) (s : State) : Out := intI st d a imm 7 (fun x y => boolW (x.ult y)) s
/-- R190: ADDIW. -/
def execAddiw (st : Ctx) (d a : Reg) (imm : BitVec 16) (s : State) : Out := intI st d a imm 9 (fun x y => ((x + y).truncate 32).signExtend 64) s

/-- R190: IMM of a shift: the high bits, W, the selector and the amount. -/
def shiftImm (amt : BitVec 6) (w : Bool) (hi : BitVec 7) (sel : Nat) : BitVec 16 :=
  BitVec.ofNat 16 (hi.toNat * 512 + w.toNat * 256 + sel * 64 + amt.toNat)

/-- R190: a shift by an immediate amount. -/
def intS (st : Ctx) (d a : Reg) (amt : BitVec 6) (w : Bool) (hi : BitVec 7) (sel : Nat) (f : W64 → W64 → W64)
    (g : W32 → W32 → W32) (s : State) : Out :=
  issue st.val (encI 8 d a (shiftImm amt w hi sel))
    (unlessIllegal (hi != 0 || (w && bit amt 5)) (fun s =>
      let x := s.rdInt st.val a
      (s.wrInt st.val d (if w then (g (x.truncate 32) (amt.zeroExtend 32)).signExtend 64 else f x (amt.zeroExtend 64))).goOn st.val)) s

/-- R190: SLLI. -/
def execSlli (st : Ctx) (d a : Reg) (amt : BitVec 6) (w : Bool) (hi : BitVec 7) (s : State) : Out := intS st d a amt w hi 0 opSll opSll s
/-- R190: SRLI. -/
def execSrli (st : Ctx) (d a : Reg) (amt : BitVec 6) (w : Bool) (hi : BitVec 7) (s : State) : Out := intS st d a amt w hi 1 opSrl opSrl s
/-- R190: SRAI. -/
def execSrai (st : Ctx) (d a : Reg) (amt : BitVec 6) (w : Bool) (hi : BitVec 7) (s : State) : Out := intS st d a amt w hi 2 opSra opSra s
/-- R190: RORI. -/
def execRori (st : Ctx) (d a : Reg) (amt : BitVec 6) (w : Bool) (hi : BitVec 7) (s : State) : Out := intS st d a amt w hi 3 opRor opRor s

/-- R190: MOVI. -/
def execMovi (st : Ctx) (d : Reg) (imm : BitVec 21) (s : State) : Out :=
  issue st.val (encL 0x0A d imm) (fun s => (s.wrInt st.val d (imm.signExtend 64)).goOn st.val) s

/-- R190: INS16: h is the low two bits of the field A, whose other bits must be 0. -/
def execIns16 (st : Ctx) (d a : Reg) (imm : BitVec 16) (s : State) : Out :=
  let h := a.toNat % 4
  issue st.val (encI 0x0B d a imm)
    (unlessIllegal (decide (4 ≤ a.toNat)) (fun s =>
      (s.wrInt st.val d (putBits (s.rdInt st.val d) (16 * h + 15) (16 * h) imm.toNat)).goOn st.val)) s

/-- R190: PCADD. -/
def execPcadd (st : Ctx) (d : Reg) (imm : BitVec 21) (s : State) : Out :=
  issue st.val (encL 0x0C d imm) (fun s =>
    let pcc := (s.stall st.val).pcc
    (s.wr st.val d (Cap.setAddr pcc (Cap.addr pcc + imm21x4 imm))).goOn st.val) s

end Sys2Proof.Machine
end

