-- ==== Sys2Proof/Machine/Measure.lean ====
section
/-!
DEFINITION. Sys2Proof/Machine/Measure.lean: LG_MEASURE, the measurement of a live exchange (R510, R512).
-/
namespace Sys2Proof.Machine

/-- R297, R512: a read of Nave memory by the Sacristy: a part that the Screen refuses, that has no target or that meets
poison reads 0. -/
def State.sacRead (s : State) (pa n : Nat) : List Byte × State :=
  (transfer pa n).foldl (fun acc p =>
    let r := acc.2.dmaRead 6 p.1 p.2
    (acc.1 ++ r.1.getD (List.replicate p.2 0), r.2)) ([], s)

/-- R512: LG_MEASURE: bytes 4 to 11 are the physical address of the copy of the staged payload. -/
def execLgMeasure (i : Fin 16) (s : State) : Out :=
  .next (s.serve i 0x54 (fun m _ s =>
    let pa := leField m 4 8
    let a := s.inactive 1
    if (s.slot a 1).state ≠ .staged then (some (3, []), s)
    else
      let h := s.imgHeader a 1
      let len := leField h 0x14 4
      if 2 ^ 44 < pa + len then (some (2, []), s)
      else
        let r := s.sacRead pa len
        let s := r.2
        let run := match s.runningImg 1 with
          | some b => s.imgHeader b.val 1
          | none => []
        if ¬ digestOk h r.1 then (some (5, [3]), s)
        else if leField h 0x34 4 ≠ leField run 0x34 4 ∨ (h.drop 0x68).take 48 ≠ (run.drop 0x68).take 48 then (some (5, [7]), s)
        else (some (0, []), (s.modUpd (fun u => { u with measured := true })).raise 51)))

end Sys2Proof.Machine
end

