-- ==== Sys2Proof/Machine/Dispatch.lean ====
section
/-!
DEFINITION. Sys2Proof/Machine/Dispatch.lean: one arm for each command of the table, in the table's order.
-/
namespace Sys2Proof.Machine

/-- The effect of a command on everything but the queue. -/
def exec (i : Instr) (s : State) : Host.Outcome State Fault Refusal :=
  match i with
  | .registerWrite who addr size data => Sys2Proof.Machine.execRegisterWrite who addr size data s
  | .rcFieldRead who addr size => Sys2Proof.Machine.execRcFieldRead who addr size s
  | .pairLowRead who addr => Sys2Proof.Machine.execPairLowRead who addr s
  | .pairLowWrite who addr data => Sys2Proof.Machine.execPairLowWrite who addr data s
  | .pairHighWrite who addr data => Sys2Proof.Machine.execPairHighWrite who addr data s
  | .pairWrite64 who addr data => Sys2Proof.Machine.execPairWrite64 who addr data s
  | .islandCrossing st dst cycles => Sys2Proof.Machine.execIslandCrossing st dst cycles s
  | .unitReadyRise u => Sys2Proof.Machine.execUnitReadyRise u s
  | .extRstNAssert ns => Sys2Proof.Machine.execExtRstNAssert ns s
  | .extRstNRelease => Sys2Proof.Machine.execExtRstNRelease s
  | .vinPor => Sys2Proof.Machine.execVinPor s
  | .vinOn => Sys2Proof.Machine.execVinOn s
  | .vinBo => Sys2Proof.Machine.execVinBo s
  | .vinBoClr => Sys2Proof.Machine.execVinBoClr s
  | .vinUv => Sys2Proof.Machine.execVinUv s
  | .railOutOfRange r => Sys2Proof.Machine.execRailOutOfRange r s
  | .powerOnResetRelease bootsel role testenN => Sys2Proof.Machine.execPowerOnResetRelease bootsel role testenN s
  | .sacristySelfTestDone crystal => Sys2Proof.Machine.execSacristySelfTestDone crystal s
  | .vigilPathArmed pdMv => Sys2Proof.Machine.execVigilPathArmed pdMv s
  | .sacristyFirmwareVerified sig => Sys2Proof.Machine.execSacristyFirmwareVerified sig s
  | .naveImageVerified sig => Sys2Proof.Machine.execNaveImageVerified sig s
  | .naveRailsUp a b c d => Sys2Proof.Machine.execNaveRailsUp a b c d s
  | .nc0LeavesReset => Sys2Proof.Machine.execNc0LeavesReset s
  | .lpddrChannelTrained ch high low temp => Sys2Proof.Machine.execLpddrChannelTrained ch high low temp s
  | .ledgerEvaluation vinMv => Sys2Proof.Machine.execLedgerEvaluation vinMv s
  | .unitAdmitted => Sys2Proof.Machine.execUnitAdmitted s
  | .startPhaseEnd => Sys2Proof.Machine.execStartPhaseEnd s
  | .unitStartTimeout u => Sys2Proof.Machine.execUnitStartTimeout u s
  | .naveRailRestart => Sys2Proof.Machine.execNaveRailRestart s
  | .referenceLost => Sys2Proof.Machine.execReferenceLost s
  | .referenceRestored => Sys2Proof.Machine.execReferenceRestored s
  | .srefclkLost => Sys2Proof.Machine.execSrefclkLost s
  | .srefclkRecovery => Sys2Proof.Machine.execSrefclkRecovery s
  | .islandClockResume island => Sys2Proof.Machine.execIslandClockResume island s
  | .townTimeMeasurement source => Sys2Proof.Machine.execTownTimeMeasurement source s
  | .ppsInEdge => Sys2Proof.Machine.execPpsInEdge s
  | .ppsOutRise => Sys2Proof.Machine.execPpsOutRise s
  | .ppsOutEnd => Sys2Proof.Machine.execPpsOutEnd s
  | .townTimeSourceLost => Sys2Proof.Machine.execTownTimeSourceLost s
  | .sacristyTimeResync => Sys2Proof.Machine.execSacristyTimeResync s
  | .ttSetWrite value => Sys2Proof.Machine.execTtSetWrite value s
  | .sysctlResetReq data => Sys2Proof.Machine.execSysctlResetReq data s
  | .unitPark u => Sys2Proof.Machine.execUnitPark u s
  | .unitUnpark u => Sys2Proof.Machine.execUnitUnpark u s
  | .lockstepMismatch => Sys2Proof.Machine.execLockstepMismatch s
  | .sacristyResetComplete sig => Sys2Proof.Machine.execSacristyResetComplete sig s
  | .watchdogExpiry outOfOrder => Sys2Proof.Machine.execWatchdogExpiry outOfOrder s
  | .watchdogRestart value => Sys2Proof.Machine.execWatchdogRestart value s
  | .grantIssue st d a b => Sys2Proof.Machine.execGrantIssue st d a b s
  | .grantRevoke st d a b => Sys2Proof.Machine.execGrantRevoke st d a b s
  | .grantFence st d a b => Sys2Proof.Machine.execGrantFence st d a b s
  | .grantFenceComplete core => Sys2Proof.Machine.execGrantFenceComplete core s
  | .grantOfferRx src index epoch gen lenM1 load store => Sys2Proof.Machine.execGrantOfferRx src index epoch gen lenM1 load store s
  | .cmov st d a b => Sys2Proof.Machine.execCmov st d a b s
  | .ctag st d a b => Sys2Proof.Machine.execCtag st d a b s
  | .cdoor st d a b => Sys2Proof.Machine.execCdoor st d a b s
  | .csetaddr st d a b => Sys2Proof.Machine.execCsetaddr st d a b s
  | .cinc st d a b => Sys2Proof.Machine.execCinc st d a b s
  | .cinci st d a imm => Sys2Proof.Machine.execCinci st d a imm s
  | .cbound st d a b => Sys2Proof.Machine.execCbound st d a b s
  | .cboundx st d a b => Sys2Proof.Machine.execCboundx st d a b s
  | .cboundi st d a imm => Sys2Proof.Machine.execCboundi st d a imm s
  | .cperm st d a b => Sys2Proof.Machine.execCperm st d a b s
  | .cgetbase st d a b => Sys2Proof.Machine.execCgetbase st d a b s
  | .cgetlen st d a b => Sys2Proof.Machine.execCgetlen st d a b s
  | .cgetperm st d a b => Sys2Proof.Machine.execCgetperm st d a b s
  | .cgetkind st d a b => Sys2Proof.Machine.execCgetkind st d a b s
  | .cgettag st d a b => Sys2Proof.Machine.execCgettag st d a b s
  | .cgetnode st d a b => Sys2Proof.Machine.execCgetnode st d a b s
  | .ceq st d a b => Sys2Proof.Machine.execCeq st d a b s
  | .add st d a b w => Sys2Proof.Machine.execAdd st d a b w s
  | .sub st d a b w => Sys2Proof.Machine.execSub st d a b w s
  | .andOp st d a b w => Sys2Proof.Machine.execAndOp st d a b w s
  | .orOp st d a b w => Sys2Proof.Machine.execOrOp st d a b w s
  | .xorOp st d a b w => Sys2Proof.Machine.execXorOp st d a b w s
  | .andn st d a b w => Sys2Proof.Machine.execAndn st d a b w s
  | .sll st d a b w => Sys2Proof.Machine.execSll st d a b w s
  | .srl st d a b w => Sys2Proof.Machine.execSrl st d a b w s
  | .sra st d a b w => Sys2Proof.Machine.execSra st d a b w s
  | .ror st d a b w => Sys2Proof.Machine.execRor st d a b w s
  | .slt st d a b w => Sys2Proof.Machine.execSlt st d a b w s
  | .sltu st d a b w => Sys2Proof.Machine.execSltu st d a b w s
  | .minOp st d a b w => Sys2Proof.Machine.execMinOp st d a b w s
  | .maxOp st d a b w => Sys2Proof.Machine.execMaxOp st d a b w s
  | .minu st d a b w => Sys2Proof.Machine.execMinu st d a b w s
  | .maxu st d a b w => Sys2Proof.Machine.execMaxu st d a b w s
  | .mul st d a b w => Sys2Proof.Machine.execMul st d a b w s
  | .mulh st d a b w => Sys2Proof.Machine.execMulh st d a b w s
  | .mulhu st d a b w => Sys2Proof.Machine.execMulhu st d a b w s
  | .div st d a b w => Sys2Proof.Machine.execDiv st d a b w s
  | .divu st d a b w => Sys2Proof.Machine.execDivu st d a b w s
  | .rem st d a b w => Sys2Proof.Machine.execRem st d a b w s
  | .remu st d a b w => Sys2Proof.Machine.execRemu st d a b w s
  | .clz st d a b w => Sys2Proof.Machine.execClz st d a b w s
  | .ctz st d a b w => Sys2Proof.Machine.execCtz st d a b w s
  | .popc st d a b w => Sys2Proof.Machine.execPopc st d a b w s
  | .sextB st d a b w => Sys2Proof.Machine.execSextB st d a b w s
  | .sextH st d a b w => Sys2Proof.Machine.execSextH st d a b w s
  | .sextW st d a b w => Sys2Proof.Machine.execSextW st d a b w s
  | .zextW st d a b w => Sys2Proof.Machine.execZextW st d a b w s
  | .addi st d a imm => Sys2Proof.Machine.execAddi st d a imm s
  | .andi st d a imm => Sys2Proof.Machine.execAndi st d a imm s
  | .ori st d a imm => Sys2Proof.Machine.execOri st d a imm s
  | .xori st d a imm => Sys2Proof.Machine.execXori st d a imm s
  | .slti st d a imm => Sys2Proof.Machine.execSlti st d a imm s
  | .sltiu st d a imm => Sys2Proof.Machine.execSltiu st d a imm s
  | .slli st d a amt w hi => Sys2Proof.Machine.execSlli st d a amt w hi s
  | .srli st d a amt w hi => Sys2Proof.Machine.execSrli st d a amt w hi s
  | .srai st d a amt w hi => Sys2Proof.Machine.execSrai st d a amt w hi s
  | .rori st d a amt w hi => Sys2Proof.Machine.execRori st d a amt w hi s
  | .addiw st d a imm => Sys2Proof.Machine.execAddiw st d a imm s
  | .movi st d imm => Sys2Proof.Machine.execMovi st d imm s
  | .ins16 st d a imm => Sys2Proof.Machine.execIns16 st d a imm s
  | .pcadd st d imm => Sys2Proof.Machine.execPcadd st d imm s
  | .lb st d a m => Sys2Proof.Machine.execLb st d a m s
  | .lbu st d a m => Sys2Proof.Machine.execLbu st d a m s
  | .lh st d a m => Sys2Proof.Machine.execLh st d a m s
  | .lhu st d a m => Sys2Proof.Machine.execLhu st d a m s
  | .lw st d a m => Sys2Proof.Machine.execLw st d a m s
  | .lwu st d a m => Sys2Proof.Machine.execLwu st d a m s
  | .ld st d a m => Sys2Proof.Machine.execLd st d a m s
  | .ldc st d a m => Sys2Proof.Machine.execLdc st d a m s
  | .sb st d a m => Sys2Proof.Machine.execSb st d a m s
  | .sh st d a m => Sys2Proof.Machine.execSh st d a m s
  | .sw st d a m => Sys2Proof.Machine.execSw st d a m s
  | .sd st d a m => Sys2Proof.Machine.execSd st d a m s
  | .stc st d a m => Sys2Proof.Machine.execStc st d a m s
  | .ldblk st d a imm => Sys2Proof.Machine.execLdblk st d a imm s
  | .stblk st d a imm => Sys2Proof.Machine.execStblk st d a imm s
  | .beq st a b off => Sys2Proof.Machine.execBeq st a b off s
  | .bne st a b off => Sys2Proof.Machine.execBne st a b off s
  | .blt st a b off => Sys2Proof.Machine.execBlt st a b off s
  | .bge st a b off => Sys2Proof.Machine.execBge st a b off s
  | .bltu st a b off => Sys2Proof.Machine.execBltu st a b off s
  | .bgeu st a b off => Sys2Proof.Machine.execBgeu st a b off s
  | .bt st a b off => Sys2Proof.Machine.execBt st a b off s
  | .bnt st a b off => Sys2Proof.Machine.execBnt st a b off s
  | .jl st d imm => Sys2Proof.Machine.execJl st d imm s
  | .jr st d a b => Sys2Proof.Machine.execJr st d a b s
  | .enter st d a b => Sys2Proof.Machine.execEnter st d a b s
  | .leave st d a b => Sys2Proof.Machine.execLeave st d a b s
  | .stowLo st d a b => Sys2Proof.Machine.execStowLo st d a b s
  | .stowHi st d a b => Sys2Proof.Machine.execStowHi st d a b s
  | .unstow st d a b => Sys2Proof.Machine.execUnstow st d a b s
  | .wait st d a b => Sys2Proof.Machine.execWait st d a b s
  | .yield st d a b => Sys2Proof.Machine.execYield st d a b s
  | .shandle st d a b => Sys2Proof.Machine.execShandle st d a b s
  | .ststart st d a b => Sys2Proof.Machine.execStstart st d a b s
  | .ststop st d a b => Sys2Proof.Machine.execStstop st d a b s
  | .stprio st d a b => Sys2Proof.Machine.execStprio st d a b s
  | .stsig st d a b => Sys2Proof.Machine.execStsig st d a b s
  | .ststat st d a b => Sys2Proof.Machine.execStstat st d a b s
  | .mvsqR st d a b => Sys2Proof.Machine.execMvsqR st d a b s
  | .mvsqW st d a b => Sys2Proof.Machine.execMvsqW st d a b s
  | .squintAccess st => Sys2Proof.Machine.execSquintAccess st s
  | .stallSwitch core => Sys2Proof.Machine.execStallSwitch core s
  | .quantumExpiry core => Sys2Proof.Machine.execQuantumExpiry core s
  | .missDataArrival st => Sys2Proof.Machine.execMissDataArrival st s
  | .eventArrival n core => Sys2Proof.Machine.execEventArrival n core s
  | .limiterIntervalEnd n => Sys2Proof.Machine.execLimiterIntervalEnd n s
  | .trap st n d a => Sys2Proof.Machine.execTrap st n d a s
  | .retx st d a b low => Sys2Proof.Machine.execRetx st d a b low s
  | .interrupt st => Sys2Proof.Machine.execInterrupt st s
  | .farOutcome st => Sys2Proof.Machine.execFarOutcome st s
  | .mvspR st d a b low => Sys2Proof.Machine.execMvspR st d a b low s
  | .mvspW st d a b low => Sys2Proof.Machine.execMvspW st d a b low s
  | .fadd st d a b sgl rm => Sys2Proof.Machine.execFadd st d a b sgl rm s
  | .fsub st d a b sgl rm => Sys2Proof.Machine.execFsub st d a b sgl rm s
  | .fmul st d a b sgl rm => Sys2Proof.Machine.execFmul st d a b sgl rm s
  | .fdiv st d a b sgl rm => Sys2Proof.Machine.execFdiv st d a b sgl rm s
  | .fsqrt st d a b sgl rm => Sys2Proof.Machine.execFsqrt st d a b sgl rm s
  | .fmin st d a b sgl rm => Sys2Proof.Machine.execFmin st d a b sgl rm s
  | .fmax st d a b sgl rm => Sys2Proof.Machine.execFmax st d a b sgl rm s
  | .fma st d a b sgl rm => Sys2Proof.Machine.execFma st d a b sgl rm s
  | .fms st d a b sgl rm => Sys2Proof.Machine.execFms st d a b sgl rm s
  | .fnma st d a b sgl rm => Sys2Proof.Machine.execFnma st d a b sgl rm s
  | .fnms st d a b sgl rm => Sys2Proof.Machine.execFnms st d a b sgl rm s
  | .fcvtSD st d a b rm => Sys2Proof.Machine.execFcvtSD st d a b rm s
  | .fcvtDS st d a b rm => Sys2Proof.Machine.execFcvtDS st d a b rm s
  | .fcvtBfS st d a b rm => Sys2Proof.Machine.execFcvtBfS st d a b rm s
  | .fcvtSBf st d a b rm => Sys2Proof.Machine.execFcvtSBf st d a b rm s
  | .fcvtLD st d a b rm => Sys2Proof.Machine.execFcvtLD st d a b rm s
  | .fcvtLuD st d a b rm => Sys2Proof.Machine.execFcvtLuD st d a b rm s
  | .fcvtWD st d a b rm => Sys2Proof.Machine.execFcvtWD st d a b rm s
  | .fcvtWuD st d a b rm => Sys2Proof.Machine.execFcvtWuD st d a b rm s
  | .fcvtLS st d a b rm => Sys2Proof.Machine.execFcvtLS st d a b rm s
  | .fcvtLuS st d a b rm => Sys2Proof.Machine.execFcvtLuS st d a b rm s
  | .fcvtWS st d a b rm => Sys2Proof.Machine.execFcvtWS st d a b rm s
  | .fcvtWuS st d a b rm => Sys2Proof.Machine.execFcvtWuS st d a b rm s
  | .fcvtDL st d a b rm => Sys2Proof.Machine.execFcvtDL st d a b rm s
  | .fcvtDLu st d a b rm => Sys2Proof.Machine.execFcvtDLu st d a b rm s
  | .fcvtSL st d a b rm => Sys2Proof.Machine.execFcvtSL st d a b rm s
  | .fcvtSLu st d a b rm => Sys2Proof.Machine.execFcvtSLu st d a b rm s
  | .feq st d a b sgl hi => Sys2Proof.Machine.execFeq st d a b sgl hi s
  | .flt st d a b sgl hi => Sys2Proof.Machine.execFlt st d a b sgl hi s
  | .fle st d a b sgl hi => Sys2Proof.Machine.execFle st d a b sgl hi s
  | .fclass st d a b sgl hi => Sys2Proof.Machine.execFclass st d a b sgl hi s
  | .fsgnj st d a b sgl hi => Sys2Proof.Machine.execFsgnj st d a b sgl hi s
  | .fsgnjn st d a b sgl hi => Sys2Proof.Machine.execFsgnjn st d a b sgl hi s
  | .fsgnjx st d a b sgl hi => Sys2Proof.Machine.execFsgnjx st d a b sgl hi s
  | .fliS st d a imm => Sys2Proof.Machine.execFliS st d a imm s
  | .fliD st d a imm => Sys2Proof.Machine.execFliD st d a imm s
  | .amoswap st d a b w hi => Sys2Proof.Machine.execAmoswap st d a b w hi s
  | .amoadd st d a b w hi => Sys2Proof.Machine.execAmoadd st d a b w hi s
  | .amoand st d a b w hi => Sys2Proof.Machine.execAmoand st d a b w hi s
  | .amoor st d a b w hi => Sys2Proof.Machine.execAmoor st d a b w hi s
  | .amoxor st d a b w hi => Sys2Proof.Machine.execAmoxor st d a b w hi s
  | .amomin st d a b w hi => Sys2Proof.Machine.execAmomin st d a b w hi s
  | .amomax st d a b w hi => Sys2Proof.Machine.execAmomax st d a b w hi s
  | .amominu st d a b w hi => Sys2Proof.Machine.execAmominu st d a b w hi s
  | .amomaxu st d a b w hi => Sys2Proof.Machine.execAmomaxu st d a b w hi s
  | .cas st d a b w hi => Sys2Proof.Machine.execCas st d a b w hi s
  | .casC st d a b w hi => Sys2Proof.Machine.execCasC st d a b w hi s
  | .fenceMem st d a b => Sys2Proof.Machine.execFenceMem st d a b s
  | .fenceIns st d a b => Sys2Proof.Machine.execFenceIns st d a b s
  | .fenceXlt st d a b => Sys2Proof.Machine.execFenceXlt st d a b s
  | .fenceScr st d a b => Sys2Proof.Machine.execFenceScr st d a b s
  | .xinv st d a b => Sys2Proof.Machine.execXinv st d a b s
  | .xinvG st d a b => Sys2Proof.Machine.execXinvG st d a b s
  | .xinvA st d a b => Sys2Proof.Machine.execXinvA st d a b s
  | .xinvGa st d a b => Sys2Proof.Machine.execXinvGa st d a b s
  | .xinvComplete core => Sys2Proof.Machine.execXinvComplete core s
  | .storeVisible st => Sys2Proof.Machine.execStoreVisible st s
  | .screenRuleCommit who n data => Sys2Proof.Machine.execScreenRuleCommit who n data s
  | .screenRuleInEffect n => Sys2Proof.Machine.execScreenRuleInEffect n s
  | .scrLogPop who => Sys2Proof.Machine.execScrLogPop who s
  | .memoryScrub pa err => Sys2Proof.Machine.execMemoryScrub pa err s
  | .dramRefresh ch rank temp => Sys2Proof.Machine.execDramRefresh ch rank temp s
  | .laneKeyAgreement lane peer nonce pub sigOk => Sys2Proof.Machine.execLaneKeyAgreement lane peer nonce pub sigOk s
  | .laneInService lane peer peerRate peerProt => Sys2Proof.Machine.execLaneInService lane peer peerRate peerProt s
  | .laneTrainingRetry lane => Sys2Proof.Machine.execLaneTrainingRetry lane s
  | .linkKeyRatchet lane rx => Sys2Proof.Machine.execLinkKeyRatchet lane rx s
  | .codewordRx lane fec ctl body => Sys2Proof.Machine.execCodewordRx lane fec ctl body s
  | .linkCodewordRx lane freed wicketEmpty delay beacon => Sys2Proof.Machine.execLinkCodewordRx lane freed wicketEmpty delay beacon s
  | .bayStart => Sys2Proof.Machine.execBayStart s
  | .markerRx ring m residence => Sys2Proof.Machine.execMarkerRx ring m residence s
  | .safeCellRx ring slot cell => Sys2Proof.Machine.execSafeCellRx ring slot cell s
  | .lossOfLock loss => Sys2Proof.Machine.execLossOfLock loss s
  | .portFold port => Sys2Proof.Machine.execPortFold port s
  | .portUnfold port => Sys2Proof.Machine.execPortUnfold port s
  | .plannedWrap lane => Sys2Proof.Machine.execPlannedWrap lane s
  | .enumStart => Sys2Proof.Machine.execEnumStart s
  | .ringEnumGo who data => Sys2Proof.Machine.execRingEnumGo who data s
  | .enumRx ring next excess gwserial path => Sys2Proof.Machine.execEnumRx ring next excess gwserial path s
  | .enumDoneRx nodes gwserial => Sys2Proof.Machine.execEnumDoneRx nodes gwserial s
  | .joinTimer => Sys2Proof.Machine.execJoinTimer s
  | .joinRx serial => Sys2Proof.Machine.execJoinRx serial s
  | .assignRx serial id => Sys2Proof.Machine.execAssignRx serial id s
  | .noticeRx kind node port => Sys2Proof.Machine.execNoticeRx kind node port s
  | .nodeIsolated => Sys2Proof.Machine.execNodeIsolated s
  | .frameRx ring f => Sys2Proof.Machine.execFrameRx ring f s
  | .frameTxStart ring => Sys2Proof.Machine.execFrameTxStart ring s
  | .beaconLapse ring => Sys2Proof.Machine.execBeaconLapse ring s
  | .safeTxGo who data => Sys2Proof.Machine.execSafeTxGo who data s
  | .ringCtrlTxPush who data => Sys2Proof.Machine.execRingCtrlTxPush who data s
  | .ringCtrlRxPop who data => Sys2Proof.Machine.execRingCtrlRxPop who data s
  | .ctrlRetry dest => Sys2Proof.Machine.execCtrlRetry dest s
  | .ctrlAckRx src seq => Sys2Proof.Machine.execCtrlAckRx src seq s
  | .farRequestRx f => Sys2Proof.Machine.execFarRequestRx f s
  | .farRequestService => Sys2Proof.Machine.execFarRequestService s
  | .queryRx f => Sys2Proof.Machine.execQueryRx f s
  | .farResponseRx f => Sys2Proof.Machine.execFarResponseRx f s
  | .farTimerExpiry st => Sys2Proof.Machine.execFarTimerExpiry st s
  | .farBackoffEnd st => Sys2Proof.Machine.execFarBackoffEnd st s
  | .tpWireFrameRx port frame fcsOk => Sys2Proof.Machine.execTpWireFrameRx port frame fcsOk s
  | .tpWireFrameTx port => Sys2Proof.Machine.execTpWireFrameTx port s
  | .tpTxDescriptor port => Sys2Proof.Machine.execTpTxDescriptor port s
  | .tpRingDisable port tx => Sys2Proof.Machine.execTpRingDisable port tx s
  | .tpPtpOffsetWrite port offset => Sys2Proof.Machine.execTpPtpOffsetWrite port offset s
  | .tpLinkChange port block fec lf rf => Sys2Proof.Machine.execTpLinkChange port block fec lf rf s
  | .cphSlotGo slot => Sys2Proof.Machine.execCphSlotGo slot s
  | .cphSlotAbort slot => Sys2Proof.Machine.execCphSlotAbort slot s
  | .cphSlotClear slot => Sys2Proof.Machine.execCphSlotClear slot s
  | .aesGcmEncrypt upto => Sys2Proof.Machine.execAesGcmEncrypt upto s
  | .aesGcmDecrypt upto => Sys2Proof.Machine.execAesGcmDecrypt upto s
  | .aesCtr upto => Sys2Proof.Machine.execAesCtr upto s
  | .aesCbcEncrypt upto => Sys2Proof.Machine.execAesCbcEncrypt upto s
  | .aesCbcDecrypt upto => Sys2Proof.Machine.execAesCbcDecrypt upto s
  | .sha256 upto => Sys2Proof.Machine.execSha256 upto s
  | .sha384 upto => Sys2Proof.Machine.execSha384 upto s
  | .sha3256 upto => Sys2Proof.Machine.execSha3256 upto s
  | .ecdsaVerify => Sys2Proof.Machine.execEcdsaVerify s
  | .ecdsaSign => Sys2Proof.Machine.execEcdsaSign s
  | .x25519 => Sys2Proof.Machine.execX25519 s
  | .copy upto => Sys2Proof.Machine.execCopy upto s
  | .capabilityAwareCopy upto => Sys2Proof.Machine.execCapabilityAwareCopy upto s
  | .random upto => Sys2Proof.Machine.execRandom upto s
  | .cphPreempt => Sys2Proof.Machine.execCphPreempt s
  | .cphQuantumYield => Sys2Proof.Machine.execCphQuantumYield s
  | .cphJobResume => Sys2Proof.Machine.execCphJobResume s
  | .drbgReseed => Sys2Proof.Machine.execDrbgReseed s
  | .trngHealthFail => Sys2Proof.Machine.execTrngHealthFail s
  | .cameraFrameRx f res err => Sys2Proof.Machine.execCameraFrameRx f res err s
  | .cameraLost => Sys2Proof.Machine.execCameraLost s
  | .thermalFrameRead complete pix res err => Sys2Proof.Machine.execThermalFrameRead complete pix res err s
  | .clrRunStart => Sys2Proof.Machine.execClrRunStart s
  | .clrRunStop => Sys2Proof.Machine.execClrRunStop s
  | .clrLoad bank => Sys2Proof.Machine.execClrLoad bank s
  | .clrLoadDone bank sig => Sys2Proof.Machine.execClrLoadDone bank sig s
  | .clrSwap => Sys2Proof.Machine.execClrSwap s
  | .clrZoneCommit z data => Sys2Proof.Machine.execClrZoneCommit z data s
  | .clrHomogCommit data => Sys2Proof.Machine.execClrHomogCommit data s
  | .clrSpeedEdgeCommit data => Sys2Proof.Machine.execClrSpeedEdgeCommit data s
  | .periodEnd => Sys2Proof.Machine.execPeriodEnd s
  | .gtPeriodBoundary n => Sys2Proof.Machine.execGtPeriodBoundary n s
  | .gtCompareEvent n k => Sys2Proof.Machine.execGtCompareEvent n k s
  | .gtEnable n => Sys2Proof.Machine.execGtEnable n s
  | .gtDisable n => Sys2Proof.Machine.execGtDisable n s
  | .gtArm n => Sys2Proof.Machine.execGtArm n s
  | .tmrArmSet units => Sys2Proof.Machine.execTmrArmSet units s
  | .tmrHoldSet units => Sys2Proof.Machine.execTmrHoldSet units s
  | .tmrHoldClr units => Sys2Proof.Machine.execTmrHoldClr units s
  | .gstartGo => Sys2Proof.Machine.execGstartGo s
  | .armAt => Sys2Proof.Machine.execArmAt s
  | .gstartCancel => Sys2Proof.Machine.execGstartCancel s
  | .scheduledRelease => Sys2Proof.Machine.execScheduledRelease s
  | .lpPeriodBoundary n => Sys2Proof.Machine.execLpPeriodBoundary n s
  | .lpEnable n => Sys2Proof.Machine.execLpEnable n s
  | .lpDisable n => Sys2Proof.Machine.execLpDisable n s
  | .lpArm n => Sys2Proof.Machine.execLpArm n s
  | .edEdge n level => Sys2Proof.Machine.execEdEdge n level s
  | .tmrEdPop n => Sys2Proof.Machine.execTmrEdPop n s
  | .daliTxGo data => Sys2Proof.Machine.execDaliTxGo data s
  | .daliFrameEnd e => Sys2Proof.Machine.execDaliFrameEnd e s
  | .daliBusFault => Sys2Proof.Machine.execDaliBusFault s
  | .sacristyTick => Sys2Proof.Machine.execSacristyTick s
  | .lampGiveBack => Sys2Proof.Machine.execLampGiveBack s
  | .vigilDaliRepeat => Sys2Proof.Machine.execVigilDaliRepeat s
  | .adcRound mv counted => Sys2Proof.Machine.execAdcRound mv counted s
  | .temperatureRead sac nave => Sys2Proof.Machine.execTemperatureRead sac nave s
  | .thermalRestart => Sys2Proof.Machine.execThermalRestart s
  | .derateEvaluation => Sys2Proof.Machine.execDerateEvaluation s
  | .vddNaveSettled => Sys2Proof.Machine.execVddNaveSettled s
  | .ageingMeasurement slowdown => Sys2Proof.Machine.execAgeingMeasurement slowdown s
  | .laneEyeMeasurement margin => Sys2Proof.Machine.execLaneEyeMeasurement margin s
  | .hatchTxRing slot => Sys2Proof.Machine.execHatchTxRing slot s
  | .hatchRxAck slot => Sys2Proof.Machine.execHatchRxAck slot s
  | .heartbeatChallenge => Sys2Proof.Machine.execHeartbeatChallenge s
  | .heartbeatAnswer => Sys2Proof.Machine.execHeartbeatAnswer s
  | .heartbeatDeadline => Sys2Proof.Machine.execHeartbeatDeadline s
  | .heartbeatGraceExpiry => Sys2Proof.Machine.execHeartbeatGraceExpiry s
  | .logWrite slot => Sys2Proof.Machine.execLogWrite slot s
  | .logInfo slot => Sys2Proof.Machine.execLogInfo slot s
  | .sign slot => Sys2Proof.Machine.execSign slot s
  | .cert slot => Sys2Proof.Machine.execCert slot s
  | .configRead slot => Sys2Proof.Machine.execConfigRead slot s
  | .configWrite slot token verified => Sys2Proof.Machine.execConfigWrite slot token verified s
  | .lcChallenge slot => Sys2Proof.Machine.execLcChallenge slot s
  | .lcDebug slot sigOk nonce => Sys2Proof.Machine.execLcDebug slot sigOk nonce s
  | .lcDecommission slot sigOk nonce => Sys2Proof.Machine.execLcDecommission slot sigOk nonce s
  | .telemetryUpdate => Sys2Proof.Machine.execTelemetryUpdate s
  | .program a nwords => Sys2Proof.Machine.execProgram a nwords s
  | .zero a nwords => Sys2Proof.Machine.execZero a nwords s
  | .eraseSector a => Sys2Proof.Machine.execEraseSector a s
  | .eraseBlock a => Sys2Proof.Machine.execEraseBlock a s
  | .mread a nwords mode => Sys2Proof.Machine.execMread a nwords mode s
  | .flashCommandDone a fails verified => Sys2Proof.Machine.execFlashCommandDone a fails verified s
  | .eraseResume a => Sys2Proof.Machine.execEraseResume a s
  | .flashScrubSector a sector weak still bad erasedFail => Sys2Proof.Machine.execFlashScrubSector a sector weak still bad erasedFail s
  | .flInfo slot => Sys2Proof.Machine.execFlInfo slot s
  | .flProgram slot => Sys2Proof.Machine.execFlProgram slot s
  | .flErase slot => Sys2Proof.Machine.execFlErase slot s
  | .flWear slot => Sys2Proof.Machine.execFlWear slot s
  | .stageBegin src verified => Sys2Proof.Machine.execStageBegin src verified s
  | .stageWrite src verified => Sys2Proof.Machine.execStageWrite src verified s
  | .stageEnd src readable sigOk => Sys2Proof.Machine.execStageEnd src readable sigOk s
  | .activate src => Sys2Proof.Machine.execActivate src s
  | .lgMeasure slot => Sys2Proof.Machine.execLgMeasure slot s
  | .lgCommit slot => Sys2Proof.Machine.execLgCommit slot s
  | .lgAbort slot => Sys2Proof.Machine.execLgAbort slot s
  | .confirm slot blown => Sys2Proof.Machine.execConfirm slot blown s
  | .slotInfo slot => Sys2Proof.Machine.execSlotInfo slot s
  | .exchangeDeadline => Sys2Proof.Machine.execExchangeDeadline s
  | .firmwareSelfConfirm blown => Sys2Proof.Machine.execFirmwareSelfConfirm blown s
  | .svcStatus => Sys2Proof.Machine.execSvcStatus s
  | .svcLogRead first count => Sys2Proof.Machine.execSvcLogRead first count s
  | .svcFrameTimeout => Sys2Proof.Machine.execSvcFrameTimeout s
  | .overcurrentCut n => Sys2Proof.Machine.execOvercurrentCut n s
  | .overcurrentCutRelease n => Sys2Proof.Machine.execOvercurrentCutRelease n s
  | .scheduleVote => Sys2Proof.Machine.execScheduleVote s
  | .latentSelfTest pass => Sys2Proof.Machine.execLatentSelfTest pass s
  | .i2cStart n data => Sys2Proof.Machine.execI2cStart n data s
  | .i2cSend n data => Sys2Proof.Machine.execI2cSend n data s
  | .i2cReadAck n => Sys2Proof.Machine.execI2cReadAck n s
  | .i2cReadNack n => Sys2Proof.Machine.execI2cReadNack n s
  | .i2cStop n => Sys2Proof.Machine.execI2cStop n s
  | .i2cCommandDone n e => Sys2Proof.Machine.execI2cCommandDone n e s
  | .i2cStretchTimeout n => Sys2Proof.Machine.execI2cStretchTimeout n s
  | .spiTxWrite n data cs last => Sys2Proof.Machine.execSpiTxWrite n data cs last s
  | .spiByteDone n rx => Sys2Proof.Machine.execSpiByteDone n rx s
  | .uartTxWrite n data => Sys2Proof.Machine.execUartTxWrite n data s
  | .uartCharSent n => Sys2Proof.Machine.execUartCharSent n s
  | .uartCharRx n data pe fe brk => Sys2Proof.Machine.execUartCharRx n data pe fe brk s
  | .gpioSet data => Sys2Proof.Machine.execGpioSet data s
  | .gpioClr data => Sys2Proof.Machine.execGpioClr data s
  | .gpioEdge n level => Sys2Proof.Machine.execGpioEdge n level s
  | .tapReset => Sys2Proof.Machine.execTapReset s
  | .idcode => Sys2Proof.Machine.execIdcode s
  | .samplePreload captured preload => Sys2Proof.Machine.execSamplePreload captured preload s
  | .extest captured drive => Sys2Proof.Machine.execExtest captured drive s
  | .clamp => Sys2Proof.Machine.execClamp s
  | .highz => Sys2Proof.Machine.execHighz s
  | .dbgXfer => Sys2Proof.Machine.execDbgXfer s
  | .bypass => Sys2Proof.Machine.execBypass s
  | .debugTransferAccess op reg data busy => Sys2Proof.Machine.execDebugTransferAccess op reg data busy s
  | .halt => Sys2Proof.Machine.execHalt s
  | .resume => Sys2Proof.Machine.execResume s
  | .step => Sys2Proof.Machine.execStep s
  | .dbgCmdNaveReset key => Sys2Proof.Machine.execDbgCmdNaveReset key s
  | .dbgRegRead => Sys2Proof.Machine.execDbgRegRead s
  | .dbgRegWrite => Sys2Proof.Machine.execDbgRegWrite s
  | .dbgMemRead => Sys2Proof.Machine.execDbgMemRead s
  | .dbgMemWrite data => Sys2Proof.Machine.execDbgMemWrite data s
  | .dbgMsgRing => Sys2Proof.Machine.execDbgMsgRing s
  | .dbgMsgAck => Sys2Proof.Machine.execDbgMsgAck s
  | .dbgSwRing => Sys2Proof.Machine.execDbgSwRing s
  | .dbgSwAck => Sys2Proof.Machine.execDbgSwAck s
  | .reservedEncoding st word => Sys2Proof.Machine.execReservedEncoding st word s
  | .trngHealthPass => Sys2Proof.Machine.execTrngHealthPass s
  | .daliBusFaultClear => Sys2Proof.Machine.execDaliBusFaultClear s
  | .manufactureToField => Sys2Proof.Machine.execManufactureToField s
  | .uartCtsNChange n level => Sys2Proof.Machine.execUartCtsNChange n level s

end Sys2Proof.Machine
end

