-- ==== Sys2Proof/WellFormed.lean ====
section
/-!
DEFINITION. Sys2Proof/WellFormed.lean: which commands are well formed: the operands that the spec bounds beyond what
their types do. The machine takes any command; a command that is not well formed is none that the part can meet.
-/
namespace Sys2Proof

/-- R333: a frame is 64 to 9,728 bytes long, its header of 16 included. -/
def Frame.wf (f : Frame) : Bool := decide (64 ≤ f.length ∧ f.length ≤ 9728) && f.payload.length + 16 == f.length

open Machine

/-- A command is well formed: pairs by their low word (R6), a crossing of 2 to 4 cycles (R23), codewords and cells of
their length (R324, R332), frames (R333), nonces and keys of 32 bytes (R326, R482), images of rows of one length (R397),
and reserved words (R177). -/
def Instr.wf : Instr → Bool
  | .pairLowRead _ a => isPairLow a.toNat
  | .pairLowWrite _ a _ => isPairLow a.toNat
  | .pairHighWrite _ a _ => isPairLow (a.toNat - 4)
  | .pairWrite64 _ a _ => isPairLow a.toNat
  | .islandCrossing _ _ cycles => decide (2 ≤ cycles ∧ cycles ≤ 4)
  | .laneKeyAgreement _ _ nonce pub _ => nonce.length == 32 && pub.length == 32
  | .codewordRx _ _ _ body => body.length == 640
  | .safeCellRx _ _ cell => cell.length == 256
  | .frameRx _ f => f.frame.wf
  | .farRequestRx f => f.wf
  | .queryRx f => f.wf
  | .farResponseRx f => f.wf
  | .cameraFrameRx f _ _ => f.grey.all (fun row => row.length == ((f.grey.head?).getD []).length)
  | .lcDebug _ _ nonce => nonce.length == 32
  | .lcDecommission _ _ nonce => nonce.length == 32
  | .reservedEncoding _ w => reservedWord w
  | .registerWrite .. | .rcFieldRead .. | .unitReadyRise .. | .extRstNAssert .. | .extRstNRelease | .vinPor | .vinOn
  | .vinBo | .vinBoClr | .vinUv | .railOutOfRange .. | .powerOnResetRelease .. | .sacristySelfTestDone ..
  | .vigilPathArmed .. | .sacristyFirmwareVerified .. | .naveImageVerified .. | .naveRailsUp .. | .nc0LeavesReset
  | .lpddrChannelTrained .. | .ledgerEvaluation .. | .unitAdmitted .. | .startPhaseEnd | .unitStartTimeout ..
  | .naveRailRestart | .referenceLost | .referenceRestored | .srefclkLost | .srefclkRecovery | .islandClockResume ..
  | .townTimeMeasurement .. | .ppsInEdge | .ppsOutRise | .ppsOutEnd | .townTimeSourceLost | .sacristyTimeResync
  | .ttSetWrite .. | .sysctlResetReq .. | .unitPark .. | .unitUnpark .. | .lockstepMismatch
  | .sacristyResetComplete .. | .watchdogExpiry .. | .watchdogRestart .. | .grantIssue .. | .grantRevoke ..
  | .grantFence .. | .grantFenceComplete .. | .grantOfferRx .. | .cmov .. | .ctag .. | .cdoor .. | .csetaddr ..
  | .cinc .. | .cinci .. | .cbound .. | .cboundx .. | .cboundi .. | .cperm .. | .cgetbase .. | .cgetlen ..
  | .cgetperm .. | .cgetkind .. | .cgettag .. | .cgetnode .. | .ceq .. | .add .. | .sub .. | .andOp .. | .orOp ..
  | .xorOp .. | .andn .. | .sll .. | .srl .. | .sra .. | .ror .. | .slt .. | .sltu .. | .minOp .. | .maxOp ..
  | .minu .. | .maxu .. | .mul .. | .mulh .. | .mulhu .. | .div .. | .divu .. | .rem .. | .remu .. | .clz ..
  | .ctz .. | .popc .. | .sextB .. | .sextH .. | .sextW .. | .zextW .. | .addi .. | .andi .. | .ori .. | .xori ..
  | .slti .. | .sltiu .. | .slli .. | .srli .. | .srai .. | .rori .. | .addiw .. | .movi .. | .ins16 .. | .pcadd ..
  | .lb .. | .lbu .. | .lh .. | .lhu .. | .lw .. | .lwu .. | .ld .. | .ldc .. | .sb .. | .sh .. | .sw .. | .sd ..
  | .stc .. | .ldblk .. | .stblk .. | .beq .. | .bne .. | .blt .. | .bge .. | .bltu .. | .bgeu .. | .bt .. | .bnt ..
  | .jl .. | .jr .. | .enter .. | .leave .. | .stowLo .. | .stowHi .. | .unstow .. | .wait .. | .yield ..
  | .shandle .. | .ststart .. | .ststop .. | .stprio .. | .stsig .. | .ststat .. | .mvsqR .. | .mvsqW ..
  | .squintAccess .. | .stallSwitch .. | .quantumExpiry .. | .missDataArrival .. | .eventArrival ..
  | .limiterIntervalEnd .. | .trap .. | .retx .. | .interrupt .. | .farOutcome .. | .mvspR .. | .mvspW .. | .fadd ..
  | .fsub .. | .fmul .. | .fdiv .. | .fsqrt .. | .fmin .. | .fmax .. | .fma .. | .fms .. | .fnma .. | .fnms ..
  | .fcvtSD .. | .fcvtDS .. | .fcvtBfS .. | .fcvtSBf .. | .fcvtLD .. | .fcvtLuD .. | .fcvtWD .. | .fcvtWuD ..
  | .fcvtLS .. | .fcvtLuS .. | .fcvtWS .. | .fcvtWuS .. | .fcvtDL .. | .fcvtDLu .. | .fcvtSL .. | .fcvtSLu ..
  | .feq .. | .flt .. | .fle .. | .fclass .. | .fsgnj .. | .fsgnjn .. | .fsgnjx .. | .fliS .. | .fliD ..
  | .amoswap .. | .amoadd .. | .amoand .. | .amoor .. | .amoxor .. | .amomin .. | .amomax .. | .amominu ..
  | .amomaxu .. | .cas .. | .casC .. | .fenceMem .. | .fenceIns .. | .fenceXlt .. | .fenceScr .. | .xinv ..
  | .xinvG .. | .xinvA .. | .xinvGa .. | .xinvComplete .. | .storeVisible .. | .screenRuleCommit ..
  | .screenRuleInEffect .. | .scrLogPop .. | .memoryScrub .. | .dramRefresh .. | .laneInService ..
  | .laneTrainingRetry .. | .linkKeyRatchet .. | .linkCodewordRx .. | .bayStart | .markerRx .. | .lossOfLock ..
  | .portFold .. | .portUnfold .. | .plannedWrap .. | .enumStart | .ringEnumGo .. | .enumRx .. | .enumDoneRx ..
  | .joinTimer | .joinRx .. | .assignRx .. | .noticeRx .. | .nodeIsolated | .frameTxStart .. | .beaconLapse ..
  | .safeTxGo .. | .ringCtrlTxPush .. | .ringCtrlRxPop .. | .ctrlRetry .. | .ctrlAckRx .. | .farRequestService
  | .farTimerExpiry .. | .farBackoffEnd .. | .tpWireFrameRx .. | .tpWireFrameTx .. | .tpTxDescriptor ..
  | .tpRingDisable .. | .tpPtpOffsetWrite .. | .tpLinkChange .. | .cphSlotGo .. | .cphSlotAbort .. | .cphSlotClear ..
  | .aesGcmEncrypt .. | .aesGcmDecrypt .. | .aesCtr .. | .aesCbcEncrypt .. | .aesCbcDecrypt .. | .sha256 ..
  | .sha384 .. | .sha3256 .. | .ecdsaVerify | .ecdsaSign | .x25519 | .copy .. | .capabilityAwareCopy .. | .random ..
  | .cphPreempt | .cphQuantumYield | .cphJobResume | .drbgReseed | .trngHealthFail | .cameraLost
  | .thermalFrameRead .. | .clrRunStart | .clrRunStop | .clrLoad .. | .clrLoadDone .. | .clrSwap | .clrZoneCommit ..
  | .clrHomogCommit .. | .clrSpeedEdgeCommit .. | .periodEnd | .gtPeriodBoundary .. | .gtCompareEvent ..
  | .gtEnable .. | .gtDisable .. | .gtArm .. | .tmrArmSet .. | .tmrHoldSet .. | .tmrHoldClr .. | .gstartGo | .armAt
  | .gstartCancel | .scheduledRelease | .lpPeriodBoundary .. | .lpEnable .. | .lpDisable .. | .lpArm .. | .edEdge ..
  | .tmrEdPop .. | .daliTxGo .. | .daliFrameEnd .. | .daliBusFault | .sacristyTick | .lampGiveBack | .vigilDaliRepeat
  | .adcRound .. | .temperatureRead .. | .thermalRestart | .derateEvaluation | .vddNaveSettled
  | .ageingMeasurement .. | .laneEyeMeasurement .. | .hatchTxRing .. | .hatchRxAck .. | .heartbeatChallenge
  | .heartbeatAnswer | .heartbeatDeadline | .heartbeatGraceExpiry | .logWrite .. | .logInfo .. | .sign .. | .cert ..
  | .configRead .. | .configWrite .. | .lcChallenge .. | .telemetryUpdate | .program .. | .zero .. | .eraseSector ..
  | .eraseBlock .. | .mread .. | .flashCommandDone .. | .eraseResume .. | .flashScrubSector .. | .flInfo ..
  | .flProgram .. | .flErase .. | .flWear .. | .stageBegin .. | .stageWrite .. | .stageEnd .. | .activate ..
  | .lgMeasure .. | .lgCommit .. | .lgAbort .. | .confirm .. | .slotInfo .. | .exchangeDeadline
  | .firmwareSelfConfirm .. | .svcStatus | .svcLogRead .. | .svcFrameTimeout | .overcurrentCut ..
  | .overcurrentCutRelease .. | .scheduleVote | .latentSelfTest .. | .i2cStart .. | .i2cSend .. | .i2cReadAck ..
  | .i2cReadNack .. | .i2cStop .. | .i2cCommandDone .. | .i2cStretchTimeout .. | .spiTxWrite .. | .spiByteDone ..
  | .uartTxWrite .. | .uartCharSent .. | .uartCharRx .. | .gpioSet .. | .gpioClr .. | .gpioEdge .. | .tapReset
  | .idcode | .samplePreload .. | .extest .. | .clamp | .highz | .dbgXfer | .bypass | .debugTransferAccess .. | .halt
  | .resume | .step | .dbgCmdNaveReset .. | .dbgRegRead | .dbgRegWrite | .dbgMemRead | .dbgMemWrite .. | .dbgMsgRing
  | .dbgMsgAck | .dbgSwRing | .dbgSwAck | .trngHealthPass | .daliBusFaultClear | .manufactureToField
  | .uartCtsNChange .. => true

end Sys2Proof
end

