-- ==== Sys2Proof/Safety.lean ====
section
/-!
DEFINITION. Sys2Proof/Safety.lean: what counts as a safe run of the block, and the words that statements about commands
are made of: when an instruction issues, what its completion and its exceptions leave, and when an access is plain.
-/
namespace Sys2Proof.Machine

/-! ## Invariants -/

/-- A step goes on: neither a fault nor a refusal. -/
def GoesOn (o : Out) : Prop := ∃ t, o = .next t

/-- The memory keeps its canonical form: addresses rise, and no byte is listed that reads as an unlisted one does. -/
def State.memOk (s : State) : Prop := Memory.wf s.mem.cells = true

/-- R150: the windows of every stall are legal. -/
def State.windowsOk (s : State) : Prop := ∀ i : Fin 33, windowsLegal i.val (s.stall i.val).wptr (s.stall i.val).live = true

/-! ## Instructions -/

/-- R180, R248: the next instruction of a context issues: nothing else is due, and its fetch is delivered and leaves t. -/
def Issues (s : State) (i : Nat) (t : State) : Prop :=
  (s.sacResume i).canIssue i = true ∧ (s.sacResume i).fetch i = .ok () t

/-- An instruction that writes register d and goes on with the next one. -/
def State.done (t : State) (i : Nat) (d : Reg) (v : Capv) : State := ((t.wr i d v).modStall i Stall.advance).boundary i

/-- The same with an integer (R107). -/
def State.doneInt (t : State) (i : Nat) (d : Reg) (v : W64) : State := t.done i d (Cap.ofInt v)

/-- An instruction that writes no register and goes on with the next one. -/
def State.doneOnly (t : State) (i : Nat) : State := (t.modStall i Stall.advance).boundary i

/-- R232, R241: an instruction that ends in an exception, its word recorded. -/
def State.raises (t : State) (i : Nat) (w : W32) (vec faddr detail : Nat) : State :=
  t.settleExc i { excOf vec faddr detail with insn := w }

/-- R177: an instruction that ends in ILLEGAL. -/
def State.illegal (t : State) (i : Nat) (w : W32) : State := t.raises i w vIllegal 0 0

/-! ## Plain accesses -/

/-- An access of n bytes of a Nave stall meets nothing between its capability checks and Close SRAM: translation is off,
the Screen admits it, no other stall holds a store that overlaps it, no breakpoint matches, nothing is poisoned. -/
structure Plain (t : State) (i : Nat) (k : AccKind) (user : Bool) (ea n : Nat) : Prop where
  /-- A stall of the Nave. -/
  nave : i < 32
  /-- Within a page, and not empty. -/
  page : 0 < n ∧ ea % 4096 + n ≤ 4096
  /-- R27: within Close SRAM. -/
  close : 0x10000000 ≤ ea ∧ ea + n ≤ 0x10200000
  /-- R256: XROOT.EN is 0. -/
  off : (t.stall i).xlt = false
  /-- R292: every commit of a rule is in effect. -/
  settled : t.screen.old = []
  /-- R285. -/
  admitted : (t.screenDecide (Who.core (i / 8) ((t.stall i).userMode || user)) ea k).ok = true
  /-- R593. -/
  free : ∀ kinds, t.breakAt i kinds ea n = false
  /-- R221. -/
  alone : ∀ j, (t.stall j).holdsStore ea n = false
  /-- R307. -/
  sound : t.mem.latent = [] ∧ t.mem.poisonGranules = []

/-- R123, R182: the capability in register A authorises a plain access of n bytes at an effective address. -/
structure Reaches (t : State) (i : Nat) (a : Reg) (ea : Int) (n : Nat) (perms : List Nat) (k : AccKind) (user : Bool) : Prop where
  /-- Tagged. -/
  tag : (t.rd i a).tag = true
  /-- Of kind 0. -/
  kind : Cap.kind (t.rd i a) = 0
  /-- With the permissions of the access. -/
  perm : ∀ p ∈ perms, Cap.has (t.rd i a) p = true
  /-- Every byte within bounds. -/
  bounds : Cap.base (t.rd i a) ≤ ea ∧ ea + n ≤ Cap.top (t.rd i a)
  /-- The effective address is an address. -/
  exact : 0 ≤ ea
  /-- And the access itself is plain. -/
  plain : Plain t i k user ea.toNat n

/-- The decision of the Screen on a plain access (R285, R294). -/
def State.decided (t : State) (i : Nat) (k : AccKind) (user : Bool) (ea : Nat) : Verdict :=
  t.screenDecide (Who.core (i / 8) ((t.stall i).userMode || user)) ea k

/-- R221, R304: the state with one more store in the buffer of a stall; a normal store merges with the youngest one of its line. -/
def State.buffered (t : State) (i ea : Nat) (bs : List Byte) (tag : Bool) (attr : BitVec 3) : State :=
  t.modStall i (fun q => { q with sbuf := q.sbuf ++
    [{ pa := BitVec.ofNat 44 ea, data := bs, tag := tag, attr := attr, merged := mergesWith (t.stall i).sbuf ea attr }] })

/-- R222, R304: the state in which a load of a stall reads: under a device or reserved attribute its earlier accesses are performed
first. -/
def State.loadFrom (t : State) (i : Nat) (attr : BitVec 3) : State := if deviceAttr attr then t.beginReg i else t

/-- R307: no memory error and no poison in Close SRAM waits to be met. -/
def State.sound (t : State) : Prop := t.mem.latent = [] ∧ t.mem.poisonGranules = []

/-- R244, R270: the trap save block of a Nave stall lies in Close SRAM, and its accesses to frame f meet nothing. -/
structure TsbPlain (t : State) (i f : Nat) : Prop where
  /-- A stall of the Nave. -/
  nave : i < 32
  /-- R244 step 1. -/
  block : tsbOk (t.stall i).tsbr = true
  /-- Within Close SRAM. -/
  close : 0x10000000 ≤ (Cap.addr (t.stall i).tsbr).toNat ∧ (Cap.addr (t.stall i).tsbr).toNat + 256 ≤ 0x10200000
  /-- R256: XROOT.EN is 0. -/
  off : (t.stall i).xlt = false
  /-- R292. -/
  settled : t.screen.old = []
  /-- R285: the Screen admits the load of HCC and both accesses to the frame. -/
  admitted : (t.screenDecide (Who.core (i / 8) false) ((Cap.addr (t.stall i).tsbr).toNat + 0x80) .load).ok = true ∧
    (∀ k, k = .load ∨ k = .store →
      (t.screenDecide (Who.core (i / 8) false) ((Cap.addr (t.stall i).tsbr).toNat + 64 * f) k).ok = true)
  /-- R221. -/
  alone : ∀ j, (t.stall j).holdsStore (Cap.addr (t.stall i).tsbr).toNat 256 = false
  /-- R307. -/
  sound : t.mem.latent = [] ∧ t.mem.poisonGranules = []

/-- R205, R209: a floating-point instruction with a result and flags: the flags gather in FPSR and D takes the value; or,
where FPCR enables a trap for one of them, FP is raised with the flags in DETAIL and nothing is written. -/
def State.fpDone (t : State) (i : Nat) (w : W32) (d : Reg) (v : W64) (flags : Nat) : State :=
  if BitVec.ofNat 5 flags &&& (t.stall i).fpcr.extractLsb' 4 5 ≠ 0 then t.raises i w vFp 0 flags
  else (t.modStall i (fun q => { q with fpsr := q.fpsr ||| BitVec.ofNat 32 flags })).doneInt i d v

/-! ## Registers and resets -/

/-- R5, R36, R92, R285, R297: an access of n bytes by an initiator to a register of a ready block whose clock runs: the Screen admits
it. It begins in `s.rowBegin w`, after the initiator's earlier accesses (R222). -/
structure RegOpen (s : State) (w : Initiator) (a n : Nat) (k : AccKind) : Prop where
  /-- The initiator is on the bus. -/
  may : s.mayAccess w n = true
  /-- Register space. -/
  space : s.target a = .regs
  /-- R92. -/
  clock : s.holds92 (islandOf a) = false
  /-- R292. -/
  settled : (s.rowBegin w).screen.old = []
  /-- R285. -/
  admitted : ((s.rowBegin w).screenDecide ((s.rowBegin w).whoIs w) a k).ok = true
  /-- R5, R36. -/
  gate : (s.rowBegin w).busGate a n = .ok

/-- R33, R36, R92: the registers of a unit answer: it is ready, and the clock of its island runs. -/
abbrev State.unitOpen (s : State) (u : Nat) : Prop := s.unitReady u = true ∧ s.holds92 (unitIsland u) = false

/-- R101: what a Nave reset leaves: the die down, every Nave stall and core at reset, no unit ready, Close SRAM, DRAM and
their tags clear. -/
structure NaveDown (u : State) : Prop where
  /-- The die does not run. -/
  phase : u.power.navePhase = .down
  /-- R109, R147: stall 0 of NC0 as it will run, every other stall of the Nave OFF with its registers 0. -/
  stalls : u.stall 0 = Stall.boot ∧ ∀ i : Fin 32, i ≠ 0 → u.stall i.val = Stall.init
  /-- No cache holds a line. -/
  caches : u.caches = Caches.init
  /-- No READY bit. -/
  ready : ∀ n : Fin 23, u.unitReady n.val = false
  /-- R81 step 10, R314: memory reads 0. -/
  bytes : ∀ a, a < aWindow → u.readMem a 1 = [0]
  /-- DRAM too. -/
  dram : ∀ a, aDram ≤ a → a < sacSpace → u.readMem a 1 = [0]
  /-- Every tag outside the Sacristy's RAM is 0. -/
  tags : ∀ a, a < sacSpace → u.tagAt a = false
  /-- The ring switch has no identity but the gateway's. -/
  node : u.ring.node = if u.gateway then some 0 else none

/-! ## Cipher jobs -/

/-- R386, R391: the engine is ready and works on job j of slot k, and nothing makes it stop at this boundary. -/
structure JobRuns (s : State) (k : SlotId) (j : JobState) (op : Nat) : Prop where
  /-- The engine is ready, and its clock runs. -/
  ready : s.unitOpen 13
  /-- It works on the slot. -/
  slot : s.cph.running = some k
  /-- The job. -/
  job : (s.cslot k.val).job = some j
  /-- Its OP. -/
  kind : j.op = op
  /-- R391, R392. -/
  stays : s.mustStop k.val j = false
  /-- R395: an operation that takes random bytes waits for no reseeding. -/
  seeded : op = 0x22 ∨ op = 0x23 ∨ op = 0x50 → s.drbgWaits = false

/-- R389: a slot is DONE with a code, and CPH_DONE shows it. -/
def State.jobDone (u : State) (k : SlotId) (code : BitVec 4) : Prop :=
  (u.cslot k.val).state = .done ∧ (u.cslot k.val).code = code ∧ u.flag (aCph 4) k.val = true

/-! ## Services of the Hatch -/

/-- R470, R475: slot i holds a request of a TYPE whose turn it is: it is the oldest rung, its answering slot is EMPTY and
the firmware runs. -/
structure Served (s : State) (i : Fin 16) (typ : Nat) : Prop where
  /-- The oldest rung. -/
  first : s.hatch.order.head? = some i
  /-- Slot 15 is the heartbeat's. -/
  plain : i.val ≠ 15
  /-- TYPE. -/
  kind : (s.txSlot i.val).type = typ
  /-- The answering slot is EMPTY. -/
  empty : (s.rxSlot i.val).full = false
  /-- The Sacristy firmware runs. -/
  runs : s.fw = true

/-- R470, R475: the request of slot i was taken and answered: the slot is EMPTY, and the other direction's slot holds TYPE with
bit 15, the TAG, the status in bytes 0 to 3 and the rest after them. -/
def State.slotAnswered (s u : State) (i : Fin 16) (typ status : Nat) (rest : List Byte) : Prop :=
  (u.txSlot i.val).full = false ∧
    u.rxSlot i.val = HSlot.mk56 (typ + 0x8000) (s.txSlot i.val).tagB (toBytes 4 status ++ rest)

/-! ## What a command answers -/

/-- A command answers a next state of which P holds. -/
def Answers (o : Out) (P : State → Prop) : Prop := ∃ t, o = .next t ∧ P t

/-- The special registers of a context that no instruction changes unless its rule says so (R231). -/
def Stall.specials (t : Stall) : W32 × Capv × W32 × Nat × Nat × W64 × W64 × Capv × W64 × W32 × W32 × W64 :=
  (t.sr, t.tsbr, t.shut, t.wptr, t.live, t.evmask, t.evpend, t.stowp, t.squint, t.fpsr, t.fpcr, t.xroot)

/-- What an instruction of context i leaves as it was from t to u when register d is all it writes (none: no register). -/
structure OnlyWrites (t u : State) (i : Nat) (d : Option Reg) : Prop where
  /-- Every other register of the context. -/
  regs : ∀ r, d ≠ some r → u.rd i r = t.rd i r
  /-- Its special registers. -/
  specials : (u.stall i).specials = (t.stall i).specials
  /-- Every register of every other context. -/
  others : ∀ j, j ≠ i → ∀ r, u.rd j r = t.rd j r
  /-- Their special registers. -/
  otherSpecials : ∀ j, j ≠ i → (u.stall j).specials = (t.stall j).specials
  /-- Every byte of memory. -/
  bytes : ∀ a, u.readMem a 1 = t.readMem a 1
  /-- Every tag. -/
  tags : ∀ a, u.tagAt a = t.tagAt a
  /-- Every memory-mapped register. -/
  registers : ∀ a, u.reg a = t.reg a

end Sys2Proof.Machine

namespace Sys2Proof

/-- The context and the destination of an integer instruction in a form that the tables of R188 and R190 give. -/
def Instr.intDest : Instr → Option (Ctx × Reg)
  | .add st d _ _ _ | .sub st d _ _ _ | .sll st d _ _ _ | .srl st d _ _ _ | .sra st d _ _ _ | .ror st d _ _ _ | .mul st d _ _ _
  | .div st d _ _ _ | .divu st d _ _ _ | .rem st d _ _ _ | .remu st d _ _ _ => some (st, d)
  | .andOp st d _ _ w | .orOp st d _ _ w | .xorOp st d _ _ w | .andn st d _ _ w | .slt st d _ _ w | .sltu st d _ _ w
  | .minOp st d _ _ w | .maxOp st d _ _ w | .minu st d _ _ w | .maxu st d _ _ w | .mulh st d _ _ w | .mulhu st d _ _ w =>
    if w then none else some (st, d)
  | .clz st d _ b _ | .ctz st d _ b _ | .popc st d _ b _ => if b = 0 then some (st, d) else none
  | .sextB st d _ b w | .sextH st d _ b w | .sextW st d _ b w | .zextW st d _ b w =>
    if b = 0 ∧ w = false then some (st, d) else none
  | .addi st d _ _ | .andi st d _ _ | .ori st d _ _ | .xori st d _ _ | .slti st d _ _ | .sltiu st d _ _ | .addiw st d _ _
  | .movi st d _ | .pcadd st d _ => some (st, d)
  | .slli st d _ amt w hi | .srli st d _ amt w hi | .srai st d _ amt w hi | .rori st d _ amt w hi =>
    if hi = 0 ∧ (w = true → amt.toNat < 32) then some (st, d) else none
  | .ins16 st d a _ => if a.toNat < 4 then some (st, d) else none
  | _ => none

/-- A load or store of R191: its context, registers, form, place in the table, bytes, alignment, and whether it stores. -/
structure MemInstr where
  /-- The context. -/
  st : Ctx
  /-- D. -/
  d : Reg
  /-- A. -/
  a : Reg
  /-- The form. -/
  form : MemForm
  /-- The row of the table. -/
  index : Nat
  /-- Bytes. -/
  size : Nat
  /-- Alignment that the instruction asks for. -/
  align : Nat
  /-- It stores. -/
  store : Bool
  /-- It is reserved in this form (R177). -/
  bad : Bool
deriving DecidableEq, Repr

/-- The loads and stores of R191. -/
def Instr.access : Instr → Option MemInstr
  | .lb st d a m => some ⟨st, d, a, m, 0, 1, 1, false, m.bad st.val⟩
  | .lbu st d a m => some ⟨st, d, a, m, 1, 1, 1, false, m.bad st.val⟩
  | .lh st d a m => some ⟨st, d, a, m, 2, 2, 1, false, m.bad st.val⟩
  | .lhu st d a m => some ⟨st, d, a, m, 3, 2, 1, false, m.bad st.val⟩
  | .lw st d a m => some ⟨st, d, a, m, 4, 4, 1, false, m.bad st.val⟩
  | .lwu st d a m => some ⟨st, d, a, m, 5, 4, 1, false, m.bad st.val⟩
  | .ld st d a m => some ⟨st, d, a, m, 6, 8, 1, false, m.bad st.val⟩
  | .ldc st d a m => some ⟨st, d, a, m, 7, 16, 16, false, m.bad st.val⟩
  | .sb st d a m => some ⟨st, d, a, m, 8, 1, 1, true, m.bad st.val⟩
  | .sh st d a m => some ⟨st, d, a, m, 9, 2, 1, true, m.bad st.val⟩
  | .sw st d a m => some ⟨st, d, a, m, 10, 4, 1, true, m.bad st.val⟩
  | .sd st d a m => some ⟨st, d, a, m, 11, 8, 1, true, m.bad st.val⟩
  | .stc st d a m => some ⟨st, d, a, m, 12, 16, 16, true, m.bad st.val⟩
  | .ldblk st d a imm => some ⟨st, d, a, .off imm, 13, 64, 64, false, d != 0⟩
  | .stblk st d a imm => some ⟨st, d, a, .off imm, 14, 64, 64, true, d != 0⟩
  | _ => none

end Sys2Proof
end

