-- ==== Sys2Proof/Certificates/Slice0/Obligations.lean ====
section
/-!
DEFINITION. Sys2Proof/Certificates/Slice0/Obligations.lean: the statements for the provers, each over every state that meets
its premises. `Issues s i t` says that the next instruction of context i issues in s and that its fetch leaves t; `Answers o P`
that a command answers a next state of which P holds.
-/
open Sys2Proof Sys2Proof.Machine

/-! ## The queue and the machine as a whole -/

/-- The block takes the command at the front of its queue and runs it on the state with the rest of the queue. -/
def Obligations.StepRunsTheFrontCommand : Prop :=
  ∀ (c : Instr) (rest : List Instr) (s : State), s.pending = c :: rest → step s = exec c { s with pending := rest }

/-- The model's choice (log 1, log 49): with no command waiting and power-on reset released, a step is one 10 ns cycle of the timer
island: the step goes on, the queue stays empty, the fuses stay as they are, the cycle is counted, and the general registers of every
context and the memory stay as they are unless the boot ROM still has its image to copy (R508). While power-on reset is held a step
changes nothing. -/
def Obligations.IdleStepIsOneTimerCycle : Prop :=
  ∀ s : State, s.pending = [] →
    (s.power.sacPhase = .porHeld → step s = .next s) ∧
    (s.power.sacPhase ≠ .porHeld →
      Answers (step s) (fun t => t.pending = [] ∧ t.chip = s.chip ∧
        t.tmr.cycles = s.tmr.cycles + 1 ∧
        (s.power.booting = false → t.mem.cells = s.mem.cells ∧ t.mem.tags = s.mem.tags ∧ ∀ i r, t.rd i r = s.rd i r)))

/-- R81 step 1, R83, R68, R240, R150, R156, R257: what reset leaves, for the values the spec gives (ST0 of NC0 RUNNING with the
boot root in PCC and S0, every other Nave stall OFF, R147); the memory is in canonical form and the windows of every stall are
legal, as every step keeps them. -/
def Obligations.ResetStateOfTheSpec : Prop :=
  (State.reset.power.navePhase = .down ∧ State.reset.power.sacPhase = .porHeld ∧ State.reset.sac.mux.taken = true ∧
    State.reset.mem.cells = [] ∧ State.reset.mem.tags = [] ∧ State.reset.pending = [] ∧
    (∀ i : Fin 33, (State.reset.stall i.val).wptr = 0 ∧ (State.reset.stall i.val).live = 1 ∧
      (State.reset.stall i.val).evmask = 0 ∧ (State.reset.stall i.val).evpend = 0 ∧ (State.reset.stall i.val).fpcr = 0 ∧
      (State.reset.stall i.val).fpsr = 0 ∧ (State.reset.stall i.val).xroot = 0 ∧ (State.reset.stall i.val).tsbr = Cap.null) ∧
    (State.reset.stall 0).state = .running ∧ (State.reset.stall 0).pcc = Cap.bootRoot ∧ State.reset.rd 0 0 = Cap.bootRoot ∧
    (∀ i : Fin 32, i ≠ 0 → (State.reset.stall i.val).state = .off) ∧
    (∀ u : Fin 23, State.reset.unitReady u.val = false) ∧ State.reset.ring.node = none ∧ State.reset.tt.now = 0) ∧
  (State.reset.memOk ∧ State.reset.windowsOk)

/-- Memory keeps its canonical form, and the fuses keep their values, in every step from every state. -/
def Obligations.EveryStepKeepsMemoryAndFuses : Prop :=
  ∀ s t : State, s.memOk → step s = .next t → t.memOk ∧ t.chip = s.chip

/-- No command touches the queue: what waits behind it still waits after it, in order; and every command goes on. -/
def Obligations.CommandsLeaveTheQueue : Prop :=
  ∀ (c : Instr) (s : State), Answers (exec c s) (fun t => t.pending = s.pending)

/-! ## Registers of a context (R107, R148 to R150) -/

/-- R107, R149: a register that a specifier names reads as it was last written, and writing it changes no other register,
special register or memory; a shared register is one register whatever the window, P and X registers are those of the current
window, E registers the X registers of the window before it, or the base entry registers while LIVE is 1. -/
def Obligations.RegisterFileAndWindows : Prop :=
  (∀ (st : Ctx) (d : Reg) (v : Capv) (s : State), (s.stall st.val).wptr < 16 →
      (s.wr st.val d v).rd st.val d = v ∧ OnlyWrites s (s.wr st.val d v) st.val (some d) ∧
      (∀ w : W64, (s.wrInt st.val d w).rdInt st.val d = w ∧ ((s.wrInt st.val d w).rd st.val d).tag = false)) ∧
  (∀ (t : Stall) (m : Nat) (k : Fin 8), (m = 16 ∨ m = 4) → t.wptr < m →
      t.reg m (BitVec.ofNat 5 k.val) = vget t.s k.val Cap.null ∧
      t.reg m (BitVec.ofNat 5 (16 + k.val)) = vget (vget t.win t.wptr Win.zero).p k.val Cap.null ∧
      t.reg m (BitVec.ofNat 5 (24 + k.val)) = vget (vget t.win t.wptr Win.zero).x k.val Cap.null ∧
      (t.live = 1 → t.reg m (BitVec.ofNat 5 (8 + k.val)) = vget t.base k.val Cap.null) ∧
      (t.live ≠ 1 → t.wptr ≠ 0 →
        t.reg m (BitVec.ofNat 5 (8 + k.val)) = vget (vget t.win (t.wptr - 1) Win.zero).x k.val Cap.null) ∧
      (t.live ≠ 1 → t.wptr = 0 →
        t.reg m (BitVec.ofNat 5 (8 + k.val)) = vget (vget t.win (m - 1) Win.zero).x k.val Cap.null))

/-! ## The fetch -/

/-- R180, R181, R299, R304: a Nave stall that runs with a sound PCC, no outcome and no interrupt due, translation off, the fetch
admitted by the Screen and no breakpoint set on it, issues its next instruction; the fetch changes nothing but the L1
instruction cache of its core, which holds the line afterwards where the attribute is normal and no sealed range touches the
line (and the model's counter of free values, log 35). -/
def Obligations.PlainFetchIssues : Prop :=
  ∀ (i : StallId) (s : State),
    s.running i.val = true → (s.stall i.val).outcome = none → s.intDue i.val = none →
    (s.stall i.val).pcc.tag = true → Cap.kind (s.stall i.val).pcc = 0 → Cap.has (s.stall i.val).pcc permExec = true →
    (Cap.addr (s.stall i.val).pcc).toNat % 4 = 0 →
    Cap.inBounds (s.stall i.val).pcc (Cap.addr (s.stall i.val).pcc).toNat 4 = true →
    Plain s i.val .fetch false (Cap.addr (s.stall i.val).pcc).toNat 4 →
    let a := (Cap.addr (s.stall i.val).pcc).toNat
    ∃ (l : Vector (List CacheLine) 4) (n : Nat),
      Issues s i.val { s with caches := { s.caches with l1i := l }, freeCtr := n } ∧
      ((s.decided i.val .fetch false a).attr = 0 → s.touchesSealed (a / 64 * 64) 64 = false →
        inCache (vget l (i.val / 8) []) (a / 64) = true)

/-! ## Integer instructions (R188 to R190) -/

/-- R188: the integer register operations on 64 bits; CLZ and CTZ give the count n of zeros above the highest one or below the
lowest, and the width for a source of 0. -/
def Obligations.IntegerOperations : Prop :=
  (∀ (st : Ctx) (d a b : Reg) (s t : State), Issues s st.val t →
      let i := st.val
      let x := t.rdInt i a
      let y := t.rdInt i b
      let k := y.toNat % 64
      exec (.add st d a b false) s = .next (t.doneInt i d (x + y)) ∧
      exec (.sub st d a b false) s = .next (t.doneInt i d (x - y)) ∧
      exec (.andOp st d a b false) s = .next (t.doneInt i d (x &&& y)) ∧
      exec (.orOp st d a b false) s = .next (t.doneInt i d (x ||| y)) ∧
      exec (.xorOp st d a b false) s = .next (t.doneInt i d (x ^^^ y)) ∧
      exec (.andn st d a b false) s = .next (t.doneInt i d (x &&& ~~~ y)) ∧
      exec (.sll st d a b false) s = .next (t.doneInt i d (x <<< k)) ∧
      exec (.srl st d a b false) s = .next (t.doneInt i d (x >>> k)) ∧
      exec (.sra st d a b false) s = .next (t.doneInt i d (BitVec.ofInt 64 (x.toInt / 2 ^ k))) ∧
      exec (.ror st d a b false) s = .next (t.doneInt i d (x >>> k ||| x <<< ((64 - k) % 64))) ∧
      exec (.slt st d a b false) s = .next (t.doneInt i d (if x.toInt < y.toInt then 1 else 0)) ∧
      exec (.sltu st d a b false) s = .next (t.doneInt i d (if x.toNat < y.toNat then 1 else 0)) ∧
      exec (.minOp st d a b false) s = .next (t.doneInt i d (BitVec.ofInt 64 (min x.toInt y.toInt))) ∧
      exec (.maxOp st d a b false) s = .next (t.doneInt i d (BitVec.ofInt 64 (max x.toInt y.toInt))) ∧
      exec (.minu st d a b false) s = .next (t.doneInt i d (BitVec.ofNat 64 (min x.toNat y.toNat))) ∧
      exec (.maxu st d a b false) s = .next (t.doneInt i d (BitVec.ofNat 64 (max x.toNat y.toNat))) ∧
      exec (.mul st d a b false) s = .next (t.doneInt i d (BitVec.ofNat 64 (x.toNat * y.toNat))) ∧
      exec (.mulh st d a b false) s = .next (t.doneInt i d (BitVec.ofInt 64 (x.toInt * y.toInt / 2 ^ 64))) ∧
      exec (.mulhu st d a b false) s = .next (t.doneInt i d (BitVec.ofNat 64 (x.toNat * y.toNat / 2 ^ 64))) ∧
      exec (.popc st d a 0 false) s = .next (t.doneInt i d (BitVec.ofNat 64 (popCount x))) ∧
      exec (.sextB st d a 0 false) s = .next (t.doneInt i d ((x.setWidth 8).signExtend 64)) ∧
      exec (.sextH st d a 0 false) s = .next (t.doneInt i d ((x.setWidth 16).signExtend 64)) ∧
      exec (.sextW st d a 0 false) s = .next (t.doneInt i d ((x.setWidth 32).signExtend 64)) ∧
      exec (.zextW st d a 0 false) s = .next (t.doneInt i d ((x.setWidth 32).setWidth 64))) ∧
  (∀ (st : Ctx) (d a : Reg) (s t : State), Issues s st.val t →
      let x := t.rdInt st.val a
      (∃ n, exec (.clz st d a 0 false) s = .next (t.doneInt st.val d (BitVec.ofNat 64 n)) ∧ n ≤ 64 ∧
        x.toNat < 2 ^ (64 - n) ∧ (x ≠ 0 → 2 ^ (63 - n) ≤ x.toNat ∧ n < 64) ∧ (x = 0 → n = 64)) ∧
      (∃ n, exec (.ctz st d a 0 false) s = .next (t.doneInt st.val d (BitVec.ofNat 64 n)) ∧ n ≤ 64 ∧
        (∀ j, j < n → x.getLsbD j = false) ∧ (x ≠ 0 → x.getLsbD n = true) ∧ (x = 0 → n = 64)))

/-- R189: the corner results of the integer instructions, in the 64-bit forms and, with 32 in place of 64 and sign-extended, in
the W forms: division by 0, the most negative number by −1, CLZ and CTZ of 0, and sums, differences and products that wrap.
No corner raises an exception, and every other quotient is truncated toward zero. -/
def Obligations.IntegerCorners : Prop :=
  ∀ (st : Ctx) (d a b : Reg) (s t : State), Issues s st.val t →
    let i := st.val
    let x := t.rdInt i a
    let y := t.rdInt i b
    let xw := x.setWidth 32
    let yw := y.setWidth 32
    let res := fun (v : BitVec 64) => (Host.Outcome.next (t.doneInt i d v) : Out)
    let resw := fun (v : BitVec 32) => res (v.signExtend 64)
    (y ≠ 0 → exec (.div st d a b false) s = res (BitVec.ofInt 64 (x.toInt.tdiv y.toInt)) ∧
      exec (.rem st d a b false) s = res (BitVec.ofInt 64 (x.toInt.tmod y.toInt)) ∧
      exec (.divu st d a b false) s = res (BitVec.ofNat 64 (x.toNat / y.toNat)) ∧
      exec (.remu st d a b false) s = res (BitVec.ofNat 64 (x.toNat % y.toNat))) ∧
    (y = 0 → exec (.div st d a b false) s = res (BitVec.ofInt 64 (-1)) ∧ exec (.rem st d a b false) s = res x ∧
      exec (.divu st d a b false) s = res (BitVec.ofNat 64 (2 ^ 64 - 1)) ∧ exec (.remu st d a b false) s = res x) ∧
    (x.toInt = -2 ^ 63 → y.toInt = -1 →
      exec (.div st d a b false) s = res (BitVec.ofInt 64 (-2 ^ 63)) ∧ exec (.rem st d a b false) s = res 0) ∧
    (x = 0 → exec (.clz st d a 0 false) s = res 64 ∧ exec (.ctz st d a 0 false) s = res 64) ∧
    exec (.add st d a b false) s = res (BitVec.ofNat 64 (x.toNat + y.toNat)) ∧
    exec (.sub st d a b false) s = res (BitVec.ofInt 64 (x.toInt - y.toInt)) ∧
    exec (.mul st d a b false) s = res (BitVec.ofNat 64 (x.toNat * y.toNat)) ∧
    (yw = 0 → exec (.div st d a b true) s = resw (BitVec.ofInt 32 (-1)) ∧ exec (.rem st d a b true) s = resw xw ∧
      exec (.divu st d a b true) s = resw (BitVec.ofNat 32 (2 ^ 32 - 1)) ∧ exec (.remu st d a b true) s = resw xw) ∧
    (xw.toInt = -2 ^ 31 → yw.toInt = -1 →
      exec (.div st d a b true) s = resw (BitVec.ofInt 32 (-2 ^ 31)) ∧ exec (.rem st d a b true) s = resw 0) ∧
    (xw = 0 → exec (.clz st d a 0 true) s = resw 32 ∧ exec (.ctz st d a 0 true) s = resw 32) ∧
    exec (.add st d a b true) s = resw (BitVec.ofNat 32 (xw.toNat + yw.toNat)) ∧
    exec (.sub st d a b true) s = resw (BitVec.ofInt 32 (xw.toInt - yw.toInt)) ∧
    exec (.mul st d a b true) s = resw (BitVec.ofNat 32 (xw.toNat * yw.toNat))

/-- R188, R189: the W forms work on the low 32 bits and sign-extend their 32-bit result. -/
def Obligations.WordForms : Prop :=
  ∀ (st : Ctx) (d a b : Reg) (s t : State), Issues s st.val t →
    let i := st.val
    let x := (t.rdInt i a).setWidth 32
    let y := (t.rdInt i b).setWidth 32
    let k := y.toNat % 32
    exec (.add st d a b true) s = .next (t.doneInt i d ((x + y).signExtend 64)) ∧
    exec (.sub st d a b true) s = .next (t.doneInt i d ((x - y).signExtend 64)) ∧
    exec (.sll st d a b true) s = .next (t.doneInt i d ((x <<< k).signExtend 64)) ∧
    exec (.srl st d a b true) s = .next (t.doneInt i d ((x >>> k).signExtend 64)) ∧
    exec (.sra st d a b true) s = .next (t.doneInt i d ((x.sshiftRight k).signExtend 64)) ∧
    exec (.ror st d a b true) s = .next (t.doneInt i d ((x >>> k ||| x <<< ((32 - k) % 32)).signExtend 64)) ∧
    exec (.mul st d a b true) s = .next (t.doneInt i d ((x * y).signExtend 64)) ∧
    exec (.popc st d a 0 true) s = .next (t.doneInt i d ((BitVec.ofNat 32 (popCount x)).signExtend 64)) ∧
    (x = 0 → exec (.clz st d a 0 true) s = .next (t.doneInt i d 32) ∧ exec (.ctz st d a 0 true) s = .next (t.doneInt i d 32)) ∧
    (y ≠ 0 →
      exec (.div st d a b true) s = .next (t.doneInt i d ((BitVec.ofInt 32 (x.toInt.tdiv y.toInt)).signExtend 64)) ∧
      exec (.rem st d a b true) s = .next (t.doneInt i d ((BitVec.ofInt 32 (x.toInt.tmod y.toInt)).signExtend 64)) ∧
      exec (.divu st d a b true) s = .next (t.doneInt i d ((x / y).signExtend 64)) ∧
      exec (.remu st d a b true) s = .next (t.doneInt i d ((x % y).signExtend 64)))

/-- R190: the immediate operations; INS16 replaces one halfword of D, and PCADD gives PCC with its cursor moved by 4 × IMM,
its tag cleared where the cursor leaves the representable window (R119). -/
def Obligations.ImmediateOperations : Prop :=
  ∀ (st : Ctx) (d a : Reg) (imm : BitVec 16) (amt : BitVec 6) (wide : BitVec 21) (h : Fin 4) (s t : State), Issues s st.val t →
    let i := st.val
    let x := t.rdInt i a
    let y := imm.signExtend 64
    let n := amt.toNat
    let pcc := (t.stall i).pcc
    exec (.addi st d a imm) s = .next (t.doneInt i d (x + y)) ∧
    exec (.andi st d a imm) s = .next (t.doneInt i d (x &&& y)) ∧
    exec (.ori st d a imm) s = .next (t.doneInt i d (x ||| y)) ∧
    exec (.xori st d a imm) s = .next (t.doneInt i d (x ^^^ y)) ∧
    exec (.slti st d a imm) s = .next (t.doneInt i d (if x.toInt < imm.toInt then 1 else 0)) ∧
    exec (.sltiu st d a imm) s = .next (t.doneInt i d (if x.toNat < y.toNat then 1 else 0)) ∧
    exec (.addiw st d a imm) s = .next (t.doneInt i d (((x + y).setWidth 32).signExtend 64)) ∧
    exec (.slli st d a amt false 0) s = .next (t.doneInt i d (x <<< n)) ∧
    exec (.srli st d a amt false 0) s = .next (t.doneInt i d (x >>> n)) ∧
    exec (.srai st d a amt false 0) s = .next (t.doneInt i d (x.sshiftRight n)) ∧
    exec (.rori st d a amt false 0) s = .next (t.doneInt i d (x >>> n ||| x <<< ((64 - n) % 64))) ∧
    (n < 32 →
      exec (.slli st d a amt true 0) s = .next (t.doneInt i d ((x.setWidth 32 <<< n).signExtend 64)) ∧
      exec (.srli st d a amt true 0) s = .next (t.doneInt i d ((x.setWidth 32 >>> n).signExtend 64)) ∧
      exec (.srai st d a amt true 0) s = .next (t.doneInt i d (((x.setWidth 32).sshiftRight n).signExtend 64)) ∧
      exec (.rori st d a amt true 0) s =
        .next (t.doneInt i d ((x.setWidth 32 >>> n ||| x.setWidth 32 <<< ((32 - n) % 32)).signExtend 64))) ∧
    exec (.movi st d wide) s = .next (t.doneInt i d (wide.signExtend 64)) ∧
    (∃ v : W64, exec (.ins16 st d (BitVec.ofNat 5 h.val) imm) s = .next (t.doneInt i d v) ∧
      ∀ j, v.getLsbD j = if 16 * h.val ≤ j ∧ j < 16 * h.val + 16 then imm.getLsbD (j - 16 * h.val) else (t.rdInt i d).getLsbD j) ∧
    exec (.pcadd st d wide) s = .next (t.done i d (Cap.setAddr pcc (Cap.addr pcc + wide.signExtend 64 * 4)))

/-- R107, R188, R190: an integer instruction in a form of the tables completes and writes no register but D, no special
register, no memory and no register of another context. -/
def Obligations.IntegerInstructionsWriteOnlyD : Prop :=
  ∀ (c : Instr) (st : Ctx) (d : Reg) (s t : State), c.intDest = some (st, d) → Issues s st.val t →
    Answers (exec c s) (fun u => OnlyWrites t u st.val (some d))

/-- R119: an instruction that completes without a jump moves PCC's cursor to the next instruction. -/
def Obligations.CompletionAdvancesPcc : Prop :=
  ∀ (st : Ctx) (d : Reg) (v : Capv) (s : State),
    ((s.done st.val d v).stall st.val).pcc = Cap.setAddr (s.stall st.val).pcc (Cap.addr (s.stall st.val).pcc + 4) ∧
    ((s.doneOnly st.val).stall st.val).pcc = Cap.setAddr (s.stall st.val).pcc (Cap.addr (s.stall st.val).pcc + 4) ∧
    OnlyWrites s (s.done st.val d v) st.val (some d) ∧ OnlyWrites s (s.doneOnly st.val) st.val none


/-! ## Forms that are reserved (R177) -/

/-- R177, R188, R190, R195, R201, R210: W where there is no W form, a B field that must be 0, a shift amount of 32 or more
with W, a field of a wrong form, the S profile in the Sacristy core, a reserved rounding mode and a word whose OP, FN or COND is
reserved (0 is one) raise ILLEGAL. -/
def Obligations.ReservedFormsRaiseIllegal : Prop :=
  ∀ (st : Ctx) (d a b : Reg) (amt : BitVec 6) (imm : BitVec 16) (s t : State), Issues s st.val t →
    let i := st.val
    exec (.andOp st d a b true) s = .next (t.illegal i (encA 1 d a b (0x2 + 1024))) ∧
    exec (.mulh st d a b true) s = .next (t.illegal i (encA 1 d a b (0x11 + 1024))) ∧
    (b ≠ 0 → exec (.clz st d a b false) s = .next (t.illegal i (encA 1 d a b 0x18)) ∧
      exec (.cgetbase st d a b) s = .next (t.illegal i (encA 0x20 d a b 8)) ∧
      exec (.yield st d a b) s = .next (t.illegal i (encA 0x26 d a b 4))) ∧
    (32 ≤ amt.toNat → exec (.slli st d a amt true 0) s = .next (t.illegal i (encI 0x08 d a (BitVec.ofNat 16 (amt.toNat + 256))))) ∧
    (d ≠ 0 → exec (.ldblk st d a imm) s = .next (t.illegal i (encI 0x1D d a imm))) ∧
    (i = 32 → exec (.fadd st d a b false 0) s = .next (t.illegal i (encA 0x30 d a b 0)) ∧
      exec (.stowLo st 0 a 0) s = .next (t.illegal i (encA 0x26 0 a 0 5))) ∧
    (i ≠ 32 → exec (.fadd st d a b false 4) s = .next (t.illegal i (encA 0x30 d a b (4 * 256)))) ∧
    (∀ w, reservedWord w = true → exec (.reservedEncoding st w) s = .next (t.illegal i w)) ∧
    reservedWord 0 = true

/-! ## Capability instructions (R118 to R121, R195) -/

/-- R195: the instructions that only read a capability: CMOV keeps all 129 bits, CTAG clears the tag, the CGET rows give a
field, CEQ compares 129 bits. A base outside 64 bits or a length above 2^64, which no tagged capability has, gives some value,
which the spec does not state (log 45). -/
def Obligations.CapabilityReads : Prop :=
  ∀ (st : Ctx) (d a b : Reg) (s t : State), Issues s st.val t →
    let i := st.val
    let c := t.rd i a
    let len := Cap.top c - Cap.base c
    (∃ v, exec (.cgetbase st d a 0) s = .next (t.doneInt i d v) ∧
      (0 ≤ Cap.base c → Cap.base c < 2 ^ 64 → v = BitVec.ofInt 64 (Cap.base c))) ∧
    (∃ v, exec (.cgetlen st d a 0) s = .next (t.doneInt i d v) ∧ (len < 2 ^ 64 → v = BitVec.ofInt 64 len) ∧
      (len = 2 ^ 64 → v = BitVec.allOnes 64)) ∧
    exec (.cmov st d a 0) s = .next (t.done i d c) ∧
    exec (.ctag st d a 0) s = .next (t.done i d ⟨c.bits, false⟩) ∧
    exec (.cgetperm st d a 0) s = .next (t.doneInt i d (BitVec.ofNat 64 (bits c.bits 79 64))) ∧
    exec (.cgetkind st d a 0) s = .next (t.doneInt i d (BitVec.ofNat 64 (bits c.bits 125 122))) ∧
    exec (.cgettag st d a 0) s = .next (t.doneInt i d (if c.tag then 1 else 0)) ∧
    exec (.cgetnode st d a 0) s = .next (t.doneInt i d (BitVec.ofNat 64 (bits c.bits 121 114))) ∧
    exec (.ceq st d a b) s = .next (t.doneInt i d (if c.bits = (t.rd i b).bits ∧ c.tag = (t.rd i b).tag then 1 else 0))

/-- R118, R119, R121: what the capability instructions derive: a moved cursor, untagged outside the representable window;
bounds that lie within the source's; permissions that are only taken away, but for NOEXPORT; a door of kind 1. -/
def Obligations.CapabilityDerivations : Prop :=
  ∀ (st : Ctx) (d a b : Reg) (imm : BitVec 16) (s t : State), Issues s st.val t →
    let i := st.val
    let c := t.rd i a
    let x := t.rdInt i b
    let lo := (Cap.addr c).toNat
    c.tag = true →
    (Cap.kind c = 0 ∨ Cap.kind c = 3 →
      exec (.csetaddr st d a b) s = .next (t.done i d (Cap.setAddr c x)) ∧
      exec (.cinc st d a b) s = .next (t.done i d (Cap.setAddr c (Cap.addr c + x))) ∧
      exec (.cinci st d a imm) s = .next (t.done i d (Cap.setAddr c (Cap.addr c + imm.signExtend 64)))) ∧
    (Cap.kind c = 0 ∨ Cap.kind c = 2 ∨ Cap.kind c = 3 →
      ∃ v, exec (.cperm st d a b) s = .next (t.done i d v) ∧ v.tag = true ∧ Cap.addr v = Cap.addr c ∧ Cap.bounds v = Cap.bounds c ∧
        Cap.kind v = Cap.kind c ∧ (∀ p, p ∈ [0, 1, 2, 3, 4, 5, 8, 10, 12] → Cap.has v p = (Cap.has c p && x.getLsbD p)) ∧
        (∀ p, p ∈ [6, 7, 9] → Cap.has v p = Cap.has c p) ∧ Cap.has v 11 = (Cap.has c 11 || x.getLsbD 11)) ∧
    (∀ (n : Nat), (Cap.kind c = 0 ∨ Cap.kind c = 3) → Cap.has c permSetBounds = true →
      let e := encodeBounds lo (lo + n)
      Cap.base c ≤ e.b0 → (e.t0 : Int) ≤ Cap.top c →
      (n = x.toNat → exec (.cbound st d a b) s = .next (t.done i d (Cap.withBounds c e)) ∧
        (e.b0 = lo ∧ e.t0 = lo + n → exec (.cboundx st d a b) s = .next (t.done i d (Cap.withBounds c e)))) ∧
      (n = imm.toNat → exec (.cboundi st d a imm) s = .next (t.done i d (Cap.withBounds c e)))) ∧
    (Cap.kind c = 0 → Cap.has c permExec = true → Cap.base c ≤ lo → (lo : Int) < Cap.top c →
      ∃ v, exec (.cdoor st d a 0) s = .next (t.done i d v) ∧ v.tag = true ∧ Cap.kind v = 1 ∧ Cap.has v permDoor = true ∧
        Cap.addr v = Cap.addr c ∧ Cap.bounds v = Cap.bounds c)

/-- R118 to R121, R243: an operand without a tag raises CAP_TAG, one of a wrong kind CAP_KIND, one without the permission
CAP_PERM, bounds outside the source's or not exact CAP_BOUNDS; D is not written and DETAIL names operand A with no access. -/
def Obligations.CapabilityInstructionFaults : Prop :=
  ∀ (st : Ctx) (d a b : Reg) (s t : State), Issues s st.val t →
    let i := st.val
    let c := t.rd i a
    let lo := (Cap.addr c).toNat
    let e := encodeBounds lo (lo + (t.rdInt i b).toNat)
    let f := fun (fn vec : Nat) => (Host.Outcome.next (t.raises i (encA 0x20 d a b fn) vec 0 (a.toNat + 192)) : Out)
    (c.tag = false → exec (.csetaddr st d a b) s = f 3 vTag ∧ exec (.cinc st d a b) s = f 4 vTag ∧
      exec (.cbound st d a b) s = f 5 vTag ∧ exec (.cboundx st d a b) s = f 6 vTag ∧ exec (.cperm st d a b) s = f 7 vTag ∧
      (b = 0 → exec (.cdoor st d a b) s = f 2 vTag)) ∧
    (c.tag = true → Cap.kind c = 1 ∨ Cap.kind c = 4 →
      exec (.csetaddr st d a b) s = f 3 vKind ∧ exec (.cbound st d a b) s = f 5 vKind ∧ exec (.cperm st d a b) s = f 7 vKind ∧
      (b = 0 → exec (.cdoor st d a b) s = f 2 vKind)) ∧
    (c.tag = true → Cap.kind c = 0 →
      (Cap.has c permSetBounds = false → exec (.cbound st d a b) s = f 5 vPerm) ∧
      (Cap.has c permExec = false → b = 0 → exec (.cdoor st d a b) s = f 2 vPerm) ∧
      (Cap.has c permSetBounds = true → (e.b0 : Int) < Cap.base c ∨ Cap.top c < e.t0 →
        exec (.cbound st d a b) s = f 5 vBounds ∧ exec (.cboundx st d a b) s = f 6 vBounds) ∧
      (Cap.has c permSetBounds = true → Cap.base c ≤ e.b0 → (e.t0 : Int) ≤ Cap.top c → e.b0 ≠ lo ∨ e.t0 ≠ lo + (t.rdInt i b).toNat →
        exec (.cboundx st d a b) s = f 6 vBounds))

/-! ## Loads and stores (R182 to R194, R221) -/

/-- R191, R192: loads from Close SRAM, in every form: sign- or zero-extended to 64 bits; LDC takes the granule's tag where A
carries LOAD_CAP; LDBLK loads X0 to X7; nothing else changes, but that under a device attribute the earlier accesses of the
stall are performed first (R222, R304). -/
def Obligations.LoadsReadCloseSram : Prop :=
  ∀ (st : Ctx) (d a : Reg) (m : MemForm) (s t : State), Issues s st.val t → m.bad st.val = false →
    let i := st.val
    let ea := m.ea t i a
    let w := t.loadFrom i (t.decided i .load m.user ea.toNat).attr
    let v := fun n => ofBytes (w.readMem ea.toNat n)
    let r := fun n => Reaches t i a ea n [permLoad] .load m.user ∧ w.sound
    (r 1 → exec (.lb st d a m) s = .next (w.doneInt i d ((BitVec.ofNat 8 (v 1)).signExtend 64)) ∧
      exec (.lbu st d a m) s = .next (w.doneInt i d (BitVec.ofNat 64 (v 1)))) ∧
    (r 2 → exec (.lh st d a m) s = .next (w.doneInt i d ((BitVec.ofNat 16 (v 2)).signExtend 64)) ∧
      exec (.lhu st d a m) s = .next (w.doneInt i d (BitVec.ofNat 64 (v 2)))) ∧
    (r 4 → exec (.lw st d a m) s = .next (w.doneInt i d ((BitVec.ofNat 32 (v 4)).signExtend 64)) ∧
      exec (.lwu st d a m) s = .next (w.doneInt i d (BitVec.ofNat 64 (v 4)))) ∧
    (r 8 → exec (.ld st d a m) s = .next (w.doneInt i d (BitVec.ofNat 64 (v 8)))) ∧
    (r 16 → ea % 16 = 0 → exec (.ldc st d a m) s =
      .next (w.done i d ⟨BitVec.ofNat 128 (v 16), w.tagAt ea.toNat && Cap.has (t.rd i a) permLoadCap⟩)) ∧
    (∀ imm, m = .off imm → r 64 → ea % 64 = 0 → Answers (exec (.ldblk st 0 a imm) s) (fun u =>
      ((t.stall i).wptr < 16 → ∀ k : Fin 8, u.rd i (BitVec.ofNat 5 (24 + k.val)) = Cap.ofInt (BitVec.ofNat 64 (ofBytes (w.readMem (ea.toNat + 8 * k.val) 8)))) ∧
      (∀ q : Reg, q.toNat < 24 → u.rd i q = t.rd i q) ∧
      (u.stall i).specials = (w.stall i).specials ∧ (∀ k, u.readMem k 1 = w.readMem k 1) ∧
      (∀ j, j ≠ i → ∀ q, u.rd j q = t.rd j q)))

/-- R191, R221: a store to Close SRAM waits in the store buffer of its stall, whose other fields and memory stay as they are;
under a device attribute (R304) it is in memory at once, after the stores that the stall held. STC stores D's 129 bits. -/
def Obligations.StoresEnterTheStoreBuffer : Prop :=
  ∀ (st : Ctx) (d a : Reg) (m : MemForm) (s t : State), Issues s st.val t → m.bad st.val = false →
    let i := st.val
    let ea := m.ea t i a
    let k := (t.decided i .store m.user ea.toNat).attr
    let x := (t.rdInt i d).toNat
    let r := fun n perms => Reaches t i a ea n perms .store m.user
    let held := fun (bs : List Byte) (tag : Bool) => (Host.Outcome.next ((t.buffered i ea.toNat bs tag k).doneOnly i) : Out)
    let now := fun (bs : List Byte) (tag : Bool) =>
      (Host.Outcome.next (((t.beginReg i).writeTarget (.data (i / 8) k) ea.toNat bs (if tag then [true] else [])).doneOnly i) : Out)
    let go := fun bs tag => if k.toNat < 3 then held bs tag else now bs tag
    (r 1 [permStore] → exec (.sb st d a m) s = go (toBytes 1 x) false) ∧
    (r 2 [permStore] → exec (.sh st d a m) s = go (toBytes 2 x) false) ∧
    (r 4 [permStore] → exec (.sw st d a m) s = go (toBytes 4 x) false) ∧
    (r 8 [permStore] → exec (.sd st d a m) s = go (toBytes 8 x) false) ∧
    (ea % 16 = 0 → (r 16 [permStore] ∧ (t.rd i d).tag = false) ∨ (r 16 [permStore, permStoreCap] ∧ (t.rd i d).tag = true ∧
        (Cap.has (t.rd i d) permGlobal = true ∨ Cap.has (t.rd i a) permGlobal = false)) →
      exec (.stc st d a m) s = go (toBytes 16 (t.rd i d).bits.toNat) (t.rd i d).tag) ∧
    (∀ imm, m = .off imm → r 64 [permStore] → ea % 64 = 0 →
      exec (.stblk st 0 a imm) s =
        go ((List.range 8).flatMap (fun j => toBytes 8 (t.rdInt i (BitVec.ofNat 5 (24 + j))).toNat)) false)

/-- R125, R221: STORE_VISIBLE: the oldest buffered store of a stall is in Close SRAM: its bytes read as stored, every other byte
as before; every granule it touches loses its tag, but for a whole granule stored with its tag; the stores merged with it (R304)
leave the buffer with it, the youngest giving the bytes that it writes; the rest of the buffer waits in order and no other
stall's buffer changes. -/
def Obligations.StoreBecomesVisible : Prop :=
  (∀ (st : Ctx) (b c : BufStore) (rest : List BufStore) (s : State),
    (s.stall st.val).sbuf = b :: c :: rest → c.merged = true → (∀ x, rest.head? = some x → x.merged = false) →
    0x10000000 ≤ b.pa.toNat → b.pa.toNat + b.data.length ≤ 0x10200000 → 0 < b.data.length → 0 < c.data.length →
    0x10000000 ≤ c.pa.toNat → c.pa.toNat + c.data.length ≤ 0x10200000 →
    Answers (exec (.storeVisible st) s) (fun u =>
      (u.stall st.val).sbuf = rest ∧ u.readMem c.pa.toNat c.data.length = c.data ∧
      (∀ a, (a < c.pa.toNat ∨ c.pa.toNat + c.data.length ≤ a) → b.pa.toNat ≤ a → a < b.pa.toNat + b.data.length →
        u.readMem a 1 = [b.data.getD (a - b.pa.toNat) 0]) ∧
      (∀ a, (a < b.pa.toNat ∨ b.pa.toNat + b.data.length ≤ a) → (a < c.pa.toNat ∨ c.pa.toNat + c.data.length ≤ a) →
        u.readMem a 1 = s.readMem a 1))) ∧
  ∀ (st : Ctx) (b : BufStore) (rest : List BufStore) (s : State),
    (s.stall st.val).sbuf = b :: rest → (∀ c, rest.head? = some c → c.merged = false) →
    0x10000000 ≤ b.pa.toNat → b.pa.toNat + b.data.length ≤ 0x10200000 → 0 < b.data.length →
    (b.tag = true → b.pa.toNat % 16 = 0 ∧ b.data.length = 16) →
    Answers (exec (.storeVisible st) s) (fun u =>
      (u.stall st.val).sbuf = rest ∧ (∀ j, j ≠ st.val → (u.stall j).sbuf = (s.stall j).sbuf) ∧
      u.readMem b.pa.toNat b.data.length = b.data ∧
      (∀ a, a < b.pa.toNat ∨ b.pa.toNat + b.data.length ≤ a → u.readMem a 1 = s.readMem a 1) ∧
      (∀ a, b.pa.toNat / 16 ≤ a / 16 → a / 16 ≤ (b.pa.toNat + b.data.length - 1) / 16 → u.tagAt a = b.tag) ∧
      (∀ a, a / 16 < b.pa.toNat / 16 ∨ (b.pa.toNat + b.data.length - 1) / 16 < a / 16 → u.tagAt a = s.tagAt a) ∧
      (∀ a, u.reg a = s.reg a) ∧ (∀ i r, u.rd i r = s.rd i r))

/-- R123, R182, R184: the checks of the capability that authorises a load or store, in their order: tag, kind, permission,
bounds, alignment. FADDR is the effective address, DETAIL names A and the access; nothing is stored. -/
def Obligations.AccessChecksInOrder : Prop :=
  ∀ (c : Instr) (x : MemInstr) (s t : State), c.access = some x → x.bad = false → Issues s x.st.val t →
    let i := x.st.val
    let q := t.rd i x.a
    let ea := x.form.ea t i x.a
    let p := if x.store then permStore else permLoad
    let f := fun vec => (Host.Outcome.next (t.raises i (x.form.insn x.index x.d x.a) vec (BitVec.ofInt 64 ea).toNat
      (x.a.toNat + (if x.store then 64 else 0))) : Out)
    (q.tag = false → exec c s = f vTag) ∧
    (q.tag = true → Cap.kind q ≠ 0 → (Cap.kind q ≠ 3 ∨ i = 32) → exec c s = f vKind) ∧
    (q.tag = true → Cap.kind q = 0 → Cap.has q p = false → exec c s = f vPerm) ∧
    (q.tag = true → Cap.kind q = 0 → Cap.has q p = true → (x.index = 12 → (t.rd i x.d).tag = false) →
      (ea < Cap.base q ∨ Cap.top q < ea + x.size → exec c s = f vBounds) ∧
      (Cap.base q ≤ ea → ea + x.size ≤ Cap.top q → ea % x.align ≠ 0 → exec c s = f vBounds)) ∧
    (x.index = 12 → q.tag = true → Cap.kind q = 0 → Cap.has q p = true → (t.rd i x.d).tag = true →
      (Cap.has q permStoreCap = false → exec c s = f vPerm) ∧
      (Cap.has q permStoreCap = true → Cap.has (t.rd i x.d) permGlobal = false → Cap.has q permGlobal = true →
        exec c s = .next (t.raises i (x.form.insn x.index x.d x.a) vPerm (BitVec.ofInt 64 ea).toNat (x.d.toNat + 32 + 64))))

/-- R202, R455: loads and stores of the Sacristy core in its RAM: loads answer the bytes there, stores are in memory at once,
STC and LDC with their tag. -/
def Obligations.SacristyRamLoadsAndStores : Prop :=
  ∀ (d a : Reg) (m : MemForm) (s t : State), Issues s 32 t → m.bad 32 = false →
    let st : Ctx := 32
    let q := t.rd 32 a
    let ea := m.ea t 32 a
    let k := sacSpace + ea.toNat
    let ok := fun (n : Nat) (perms : List Nat) => q.tag = true ∧ Cap.kind q = 0 ∧ (∀ p ∈ perms, Cap.has q p = true) ∧
      Cap.base q ≤ ea ∧ ea + n ≤ Cap.top q ∧ (0x100000 : Int) ≤ ea ∧ ea + n ≤ 0x140000 ∧ ea.toNat % 4096 + n ≤ 4096
    let v := fun n => ofBytes (t.readMem k n)
    let x := (t.rdInt 32 d).toNat
    let okL := fun (n : Nat) => ok n [permLoad] ∧ t.sound
    let stored := fun (n : Nat) (bs : List Byte) (tag : Bool) (u : State) =>
      u.readMem k n = bs ∧ (∀ j, j < k ∨ k + n ≤ j → u.readMem j 1 = t.readMem j 1) ∧
      (∀ j, k / 16 ≤ j / 16 → j / 16 ≤ (k + n - 1) / 16 → u.tagAt j = tag) ∧ (∀ r, u.rd 32 r = t.rd 32 r) ∧
      (u.stall 32).specials = (t.stall 32).specials
    (okL 1 → exec (.lb st d a m) s = .next (t.doneInt 32 d ((BitVec.ofNat 8 (v 1)).signExtend 64)) ∧
      exec (.lbu st d a m) s = .next (t.doneInt 32 d (BitVec.ofNat 64 (v 1)))) ∧
    (okL 2 → exec (.lh st d a m) s = .next (t.doneInt 32 d ((BitVec.ofNat 16 (v 2)).signExtend 64)) ∧
      exec (.lhu st d a m) s = .next (t.doneInt 32 d (BitVec.ofNat 64 (v 2)))) ∧
    (okL 4 → exec (.lw st d a m) s = .next (t.doneInt 32 d ((BitVec.ofNat 32 (v 4)).signExtend 64)) ∧
      exec (.lwu st d a m) s = .next (t.doneInt 32 d (BitVec.ofNat 64 (v 4)))) ∧
    (okL 8 → exec (.ld st d a m) s = .next (t.doneInt 32 d (BitVec.ofNat 64 (v 8)))) ∧
    (okL 16 → ea % 16 = 0 →
      exec (.ldc st d a m) s = .next (t.done 32 d ⟨BitVec.ofNat 128 (v 16), t.tagAt k && Cap.has q permLoadCap⟩)) ∧
    (ok 1 [permStore] → Answers (exec (.sb st d a m) s) (stored 1 (toBytes 1 x) false)) ∧
    (ok 2 [permStore] → Answers (exec (.sh st d a m) s) (stored 2 (toBytes 2 x) false)) ∧
    (ok 4 [permStore] → Answers (exec (.sw st d a m) s) (stored 4 (toBytes 4 x) false)) ∧
    (ok 8 [permStore] → Answers (exec (.sd st d a m) s) (stored 8 (toBytes 8 x) false)) ∧
    (ok 16 [permStore, permStoreCap] → ea % 16 = 0 → (t.rd 32 d).tag = true → Cap.has (t.rd 32 d) permGlobal = true →
      Answers (exec (.stc st d a m) s) (stored 16 (toBytes 16 (t.rd 32 d).bits.toNat) true))


/-! ## Control flow (R196 to R198) and windows (R151, R152, R155, R156) -/

/-- R196, R198: a branch adds 4 × OFF to PCC's cursor where its condition holds and goes on with the next instruction where it
does not; JL writes the link capability and jumps; JR sets PCC to a kind-0 capability. Nothing else changes. -/
def Obligations.BranchesAndJumps : Prop :=
  ∀ (st : Ctx) (d a b : Reg) (off : BitVec 13) (imm : BitVec 21) (s t : State), Issues s st.val t →
    let i := st.val
    let x := t.rdInt i a
    let y := t.rdInt i b
    let c := t.rd i a
    let pcc := (t.stall i).pcc
    let moved := fun (u : State) (k : W64) => u.modStall i (fun q => { q with pcc := Cap.setAddr q.pcc (Cap.addr q.pcc + k) })
    let goes := fun (p : Bool) => (Host.Outcome.next (if p then (moved t (off.signExtend 64 * 4)).boundary i else t.doneOnly i) : Out)
    exec (.beq st a b off) s = goes (x = y) ∧ exec (.bne st a b off) s = goes (x ≠ y) ∧
    exec (.blt st a b off) s = goes (x.toInt < y.toInt) ∧ exec (.bge st a b off) s = goes (y.toInt ≤ x.toInt) ∧
    exec (.bltu st a b off) s = goes (x.toNat < y.toNat) ∧ exec (.bgeu st a b off) s = goes (y.toNat ≤ x.toNat) ∧
    exec (.bt st a 0 off) s = goes c.tag ∧ exec (.bnt st a 0 off) s = goes (!c.tag) ∧
    (b ≠ 0 → exec (.bt st a b off) s = .next (t.illegal i (encB 0x24 a b 6 off)) ∧
      exec (.bnt st a b off) s = .next (t.illegal i (encB 0x24 a b 7 off))) ∧
    exec (.jl st d imm) s =
      .next ((moved (t.wr i d (Cap.setAddr pcc (Cap.addr pcc + 4))) (imm.signExtend 64 * 4)).boundary i) ∧
    (c.tag = true → Cap.kind c = 0 →
      exec (.jr st 0 a 0) s = .next ((t.modStall i (fun q => { q with pcc := c })).boundary i)) ∧
    (c.tag = false → exec (.jr st 0 a 0) s = .next (t.raises i (encA 0x26 0 a 0 0) vTag 0 (a.toNat + 192))) ∧
    (c.tag = true → Cap.kind c ≠ 0 → exec (.jr st 0 a 0) s = .next (t.raises i (encA 0x26 0 a 0 0) vKind 0 (a.toNat + 192)))

/-- R151, R122: ENTER through a door or an EXEC capability: PCC is the target (a door opened), WPTR and LIVE go up by one, the
new window holds the return door in P7 and null values, and the caller's X registers are its E registers. R152: LEAVE returns
through P7: WPTR and LIVE go down by one, PCC is the opened return door, and no register of the ring is written. -/
def Obligations.EnterAndLeaveMoveTheWindow : Prop :=
  (∀ (st : Ctx) (a : Reg) (s t : State), Issues s st.val t →
      let i := st.val
      let c := t.rd i a
      let q := t.stall i
      let m := if i < 32 then 16 else 4
      c.tag = true → (Cap.kind c = 1 ∨ (Cap.kind c = 0 ∧ Cap.has c permExec = true)) → q.live < m → q.wptr < m →
      Answers (exec (.enter st 0 a 0) s) (fun u =>
        (u.stall i).pcc = (if Cap.kind c = 1 then Cap.openDoor c else c) ∧
        (u.stall i).wptr = (q.wptr + 1) % m ∧ (u.stall i).live = q.live + 1 ∧
        u.rd i 23 = Cap.asDoor (Cap.setAddr q.pcc (Cap.addr q.pcc + 4)) ∧
        (∀ r : Reg, 16 ≤ r.toNat → r ≠ 23 → u.rd i r = Cap.null) ∧
        (∀ r : Reg, r.toNat < 8 → u.rd i r = t.rd i r) ∧
        (1 ≤ q.live → ∀ k : Fin 8, u.rd i (BitVec.ofNat 5 (8 + k.val)) = t.rd i (BitVec.ofNat 5 (24 + k.val))) ∧
        (u.stall i).sr = q.sr ∧ (∀ j, j ≠ i → ∀ r, u.rd j r = t.rd j r) ∧ u.mem.cells = t.mem.cells ∧ u.mem.tags = t.mem.tags)) ∧
  (∀ (st : Ctx) (s t : State), Issues s st.val t →
      let i := st.val
      let c := t.rd i 23
      let q := t.stall i
      let m := if i < 32 then 16 else 4
      c.tag = true → (Cap.kind c = 1 ∨ (Cap.kind c = 0 ∧ Cap.has c permExec = true)) → 1 < q.live → q.wptr < m →
      Answers (exec (.leave st 0 0 0) s) (fun u =>
        (u.stall i).pcc = (if Cap.kind c = 1 then Cap.openDoor c else c) ∧
        (u.stall i).wptr = (if q.wptr = 0 then m - 1 else q.wptr - 1) ∧ (u.stall i).live = q.live - 1 ∧
        (u.stall i).win = q.win ∧ (u.stall i).s = q.s ∧ (u.stall i).base = q.base ∧
        (∀ k : Fin 8, (2 < q.live ∨ q.live = 2) → u.rd i (BitVec.ofNat 5 (24 + k.val)) = t.rd i (BitVec.ofNat 5 (8 + k.val))) ∧
        (u.stall i).sr = q.sr ∧ (∀ j, j ≠ i → ∀ r, u.rd j r = t.rd j r) ∧ u.mem.cells = t.mem.cells ∧ u.mem.tags = t.mem.tags))

/-- R151, R152, R199: ENTER and LEAVE stop at the ends of the ring with NEST, and fault on operands that are no doors. R180,
R247: RETX is not for a user, and faults on a TSBR that does not authorise the load of its frame. -/
def Obligations.CallsAndReturnsFault : Prop :=
  (∀ (st : Ctx) (a : Reg) (s t : State), Issues s st.val t →
      let i := st.val
      let c := t.rd i a
      let p := t.rd i 23
      let e := encA 0x26 0 a 0 1
      let l := encA 0x26 0 0 0 2
      (c.tag = false → exec (.enter st 0 a 0) s = .next (t.raises i e vTag 0 (a.toNat + 192))) ∧
      (c.tag = true → 1 < Cap.kind c → exec (.enter st 0 a 0) s = .next (t.raises i e vKind 0 (a.toNat + 192))) ∧
      (c.tag = true → Cap.kind c = 0 → Cap.has c permExec = false →
        exec (.enter st 0 a 0) s = .next (t.raises i e vNxFetch (Cap.addr c).toNat 128)) ∧
      (c.tag = true → Cap.kind c = 1 → (t.stall i).live = (if i < 32 then 16 else 4) →
        exec (.enter st 0 a 0) s = .next (t.raises i e vNest 0 0)) ∧
      (p.tag = false → exec (.leave st 0 0 0) s = .next (t.raises i l vTag 0 (23 + 192))) ∧
      (p.tag = true → Cap.kind p = 1 → (t.stall i).live = 1 → exec (.leave st 0 0 0) s = .next (t.raises i l vNest 0 0))) ∧
  (∀ (st : Ctx) (s t : State), Issues s st.val t →
      let i := st.val
      let q := t.stall i
      let a := (Cap.addr q.tsbr).toNat + (if bits q.sr 2 0 = 7 then 64 else 0)
      let w := encA 0x3D 0 0 0 (3 * 128)
      (q.userMode = true → exec (.retx st 0 0 0 0) s = .next (t.raises i w vPriv 0 0)) ∧
      (q.userMode = false → q.tsbr.tag = false → exec (.retx st 0 0 0 0) s = .next (t.raises i w vTag a (2 + 512))) ∧
      (q.userMode = false → q.tsbr.tag = true → Cap.kind q.tsbr = 0 → Cap.has q.tsbr permLoad = false →
        exec (.retx st 0 0 0 0) s = .next (t.raises i w vPerm a (2 + 512))))

/-- R155, R158: STOW of the half whose windows are the oldest eight, to a plain save area: the area holds the link, the header
and the registers of the half with their tags; LIVE goes down by eight, STOWP takes the area's capability, and the base entry
registers take X0 to X7 of the half's last window; of another half ILLEGAL. R156: UNSTOW from the plain area that STOWP names:
the empty half and the base entry registers take the area's slots, STOWP its link, LIVE goes up by eight; with more than eight
live windows ILLEGAL. -/
def Obligations.StowAndUnstow : Prop :=
  (∀ (st : Ctx) (a : Reg) (s t : State), Issues s st.val t → st.val < 32 →
      let i := st.val
      let q := t.stall i
      let c := t.rd i a
      let ea := Cap.addr c
      let full := fun h => q.oldest = 8 * h ∧ q.wptr / 8 ≠ h
      let after := fun (h : Nat) (u : State) =>
        (u.stall i).live = q.live - 8 ∧ (u.stall i).stowp = c ∧ (u.stall i).wptr = q.wptr ∧ (u.stall i).s = q.s ∧
        (u.stall i).win = q.win ∧ (u.stall i).base = (vget q.win (8 * h + 7) Win.zero).x ∧
        u.readMem ea.toNat 2112 = q.saveArea i h ∧
        (∀ k : Fin 132, u.tagAt (ea.toNat + 16 * k.val) = (q.saveTags h).getD k.val false) ∧
        (q.sbuf = [] → ∀ x, x < ea.toNat ∨ ea.toNat + 2112 ≤ x → u.readMem x 1 = t.readMem x 1)
      (ea.toNat % 64 = 0 → Reaches t i a ea.toNat 2112 [permStore, permStoreCap] .store false →
        (full 0 → Answers (exec (.stowLo st 0 a 0) s) (after 0)) ∧ (full 1 → Answers (exec (.stowHi st 0 a 0) s) (after 1))) ∧
      (¬ full 0 → exec (.stowLo st 0 a 0) s = .next (t.illegal i (encA 0x26 0 a 0 5))) ∧
      (¬ full 1 → exec (.stowHi st 0 a 0) s = .next (t.illegal i (encA 0x26 0 a 0 6)))) ∧
  (∀ (st : Ctx) (s t : State), Issues s st.val t → st.val < 32 →
      let i := st.val
      let q := t.stall i
      let ea := (Cap.addr q.stowp).toNat
      let half := 1 - q.oldest / 8
      let slot := fun k => (⟨BitVec.ofNat 128 (ofBytes (t.readMem (ea + 16 * k) 16)), t.tagAt (ea + 16 * k)⟩ : Capv)
      (q.live ≤ 8 → q.sbuf = [] → q.stowp.tag = true → Cap.kind q.stowp = 0 → Cap.has q.stowp permLoad = true → Cap.has q.stowp permLoadCap = true →
        Cap.inBounds q.stowp ea 2112 = true → ea % 64 = 0 → Plain t i .load false ea 2112 →
        t.readMem (ea + 16) 1 = [BitVec.ofNat 8 half] → t.readMem (ea + 20) 44 = List.replicate 44 0 →
        Answers (exec (.unstow st 0 0 0) s) (fun u =>
          (u.stall i).live = q.live + 8 ∧ (u.stall i).wptr = q.wptr ∧ (u.stall i).stowp = slot 0 ∧
          (∀ (w k : Fin 8), vget (vget (u.stall i).win (8 * half + w.val) Win.zero).p k.val Cap.null = slot (4 + 16 * w.val + k.val)) ∧
          (∀ (w k : Fin 8), w.val < 7 →
            vget (vget (u.stall i).win (8 * half + w.val) Win.zero).x k.val Cap.null = slot (12 + 16 * w.val + k.val)) ∧
          (∀ k : Fin 8, vget (vget (u.stall i).win (8 * half + 7) Win.zero).x k.val Cap.null = vget q.base k.val Cap.null ∧
            vget (u.stall i).base k.val Cap.null = slot (124 + k.val)) ∧
          (∀ w : Fin 16, w.val / 8 ≠ half → vget (u.stall i).win w.val Win.zero = vget q.win w.val Win.zero) ∧
          (∀ x, u.readMem x 1 = t.readMem x 1))) ∧
      (8 < q.live → exec (.unstow st 0 0 0) s = .next (t.illegal i (encA 0x26 0 0 0 7))))

/-! ## Stalls (R165 to R174) -/

/-- R172: WAIT returns and clears the pending events of its effective mask; with none pending it suspends the stall; with an
empty effective mask it is ILLEGAL. R168: YIELD switches out only where a stall of its priority or higher is READY. -/
def Obligations.WaitAndYield : Prop :=
  ∀ (st : Ctx) (d a : Reg) (s t : State), Issues s st.val t →
    let i := st.val
    let q := t.stall i
    let mask := t.rdInt i a
    let got := q.evpend &&& mask &&& q.evmask
    (mask &&& q.evmask = 0 → exec (.wait st d a 0) s = .next (t.illegal i (encA 0x26 d a 0 3))) ∧
    (got ≠ 0 → q.wptr < 16 → Answers (exec (.wait st d a 0) s) (fun u =>
      u.rdInt i d = got ∧ (u.stall i).evpend = q.evpend &&& ~~~ got ∧ (u.stall i).evmask = q.evmask ∧
      (u.stall i).pcc = Cap.setAddr q.pcc (Cap.addr q.pcc + 4) ∧ (∀ r, r ≠ d → u.rd i r = t.rd i r))) ∧
    (mask &&& q.evmask ≠ 0 → got = 0 → Answers (exec (.wait st d a 0) s) (fun u =>
      (u.stall i).state = .waiting ∧ (u.stall i).waitFor = some (d, mask) ∧ (u.stall i).pcc = q.pcc ∧
      (∀ r, u.rd i r = t.rd i r) ∧ (u.stall i).evpend = q.evpend)) ∧
    (q.stepping = false → q.state = .running → Answers (exec (.yield st 0 0 0) s) (fun u =>
      (u.stall i).state = (if i < 32 ∧ ∃ n : Fin 8, 8 * (i / 8) + n.val ≠ i ∧ (t.stall (8 * (i / 8) + n.val)).state = .ready ∧
        q.prio.toNat ≤ (t.stall (8 * (i / 8) + n.val)).prio.toNat then .ready else .running) ∧
      (u.stall i).pcc = Cap.setAddr q.pcc (Cap.addr q.pcc + 4) ∧ OnlyWrites t u i none))

/-- R165, R166: SHANDLE, for a supervisor, mints the handle of stall n, of kind 2; each control row takes a status of 0 or 1 to
D and does its operation on the stall that the handle in A names. -/
def Obligations.StallControl : Prop :=
  ∀ (st : StallId) (d a b : Reg) (s t : State), Issues s st.val t →
    let i := st.val
    let x : Ctx := ⟨i, by have := st.isLt; omega⟩
    let c := t.rd i a
    let n := bits (Cap.addr c) 4 0
    let v := t.rdInt i b
    let up := t.coreOut (n / 8) = false ∧ t.unitReady (n / 8) = true
    let handle := fun p => c.tag = true ∧ Cap.kind c = 2 ∧ Cap.has c p = true
    let free := t.enclosed n = false ∨ t.enclosed i = true
    (t.stall i).wptr < 16 → n ≠ i → (t.stall i).stepping = false →
    ((t.stall i).userMode = false → t.coreOut (bits (t.rdInt i a) 4 0 / 8) = false →
      exec (.shandle x d a 0) s = .next (t.done i d (Cap.handle (bits (t.rdInt i a) 4 0)))) ∧
    (handle permStore → free → up → (t.stall n).state = .off →
      Answers (exec (.ststart x d a b) s) (fun u => u.rdInt i d = 0 ∧ (u.stall n).state = .ready ∧ (u.stall n).pcc = t.rd i b ∧
        (u.stall n).wptr = 0 ∧ (u.stall n).live = 1 ∧ (u.stall n).evpend = 0 ∧ u.flag aEncCtrl 0 = true ∧
        u.flag aScrCtrl 1 = true ∧ u.flag aScrCtrl 2 = true)) ∧
    (handle permStore → free → up → (t.stall n).state = .stopped →
      Answers (exec (.ststart x d a b) s) (fun u => u.rdInt i d = 0 ∧ (u.stall n).state = .ready ∧ (u.stall n).pcc = (t.stall n).pcc)) ∧
    (handle permStore → free → up → (t.stall n).state = .running ∨ (t.stall n).state = .waiting ∨ (t.stall n).state = .halted →
      Answers (exec (.ststart x d a b) s) (fun u => u.rdInt i d = 1 ∧ (u.stall n).state = (t.stall n).state)) ∧
    (handle permStore → free → up → t.inFence n = false →
      (t.stall n).state = .ready ∨ (t.stall n).state = .running ∨ (t.stall n).state = .waiting →
      Answers (exec (.ststop x d a 0) s) (fun u => u.rdInt i d = 0 ∧ (u.stall n).state = .stopped ∧ (u.stall n).pcc = (t.stall n).pcc)) ∧
    (handle permStore → free → up → (t.stall n).state = .far ∨ (t.stall n).state = .miss →
      Answers (exec (.ststop x d a 0) s) (fun u => u.rdInt i d = 0 ∧ (u.stall n).state = (t.stall n).state ∧ (u.stall n).stopReq = true)) ∧
    (handle permStore → free → up →
      Answers (exec (.stprio x d a b) s) (fun u => u.rdInt i d = 0 ∧ (u.stall n).prio = v.truncate 3 ∧
        (u.stall n).state = (t.stall n).state)) ∧
    (handle permStall → up → (t.stall n).state = .running → t.hasUnit (n / 8) = true → t.flag aPark (n / 8) = false →
      t.field (aLimit (56 + bits v 2 0)) 15 0 = 0 → bit t.events.running (56 + bits v 2 0) = false →
      Answers (exec (.stsig x d a b) s) (fun u => u.rdInt i d = 0 ∧
        (u.stall n).evpend = putBit (t.stall n).evpend (56 + bits v 2 0) true)) ∧
    (handle permStall → up → (t.stall n).state = .off → Answers (exec (.stsig x d a b) s) (fun u => u.rdInt i d = 1)) ∧
    (handle permLoad → up → Answers (exec (.ststat x d a 0) s) (fun u => u.rdInt i d =
      BitVec.ofNat 64 ((t.stall n).state.code + 16 * (t.stall n).prio.toNat + (if t.enclosed n then 128 else 0)) ∧
      (∀ r, r ≠ d → u.rd i r = t.rd i r))) ∧
    (c.tag = false → exec (.ststat x d a 0) s = .next (t.raises i (encA 0x27 d a 0 5) vTag 0 (a.toNat + 192))) ∧
    (c.tag = true → Cap.kind c ≠ 2 → exec (.ststat x d a 0) s = .next (t.raises i (encA 0x27 d a 0 5) vKind 0 (a.toNat + 192))) ∧
    (c.tag = true → Cap.kind c = 2 → Cap.has c permStore = false →
      exec (.ststop x d a 0) s = .next (t.raises i (encA 0x27 d a 0 2) vPerm 0 (a.toNat + 192))) ∧
    (handle permStore → t.enclosed n = true → t.enclosed i = false →
      exec (.ststop x d a 0) s = .next (t.raises i (encA 0x27 d a 0 2) vSquint 0 0))


/-! ## Squint (R160 to R162) -/

/-- R160, R161: MVSQ reads and writes, for a supervisor, the register that SQUINT selects in a stall that is not enclosed and
stands still (or in its own): a general register of the window that SQUINT names, or a special register; an access to a stall
that runs waits in FAR. R162: SQUINT_ACCESS makes it: the RUNNING target is switched out, D takes the value, PCC moves on. -/
def Obligations.SquintReadsAndWrites : Prop :=
  (∀ (st : StallId) (d a : Reg) (s t : State), Issues s st.val t →
      let i := st.val
      let x : Ctx := ⟨i, by have := st.isLt; omega⟩
      let q := (t.stall i).squint
      let n := bits q 1 0 * 8 + bits q 4 2
      let r : Reg := BitVec.ofNat 5 (bits q 13 9)
      let w := bits q 8 5
      let y := t.stall n
      let still := n = i ∨ (y.state ≠ .running ∧ y.state ≠ .far ∧ y.state ≠ .miss)
      (t.stall i).userMode = false → t.coreOut (n / 8) = false →
      (t.enclosed n = true →
        exec (.mvsqR x d 0 0) s = .next (t.raises i (encA 0x27 d 0 0 8) vSquint 0 0) ∧
        exec (.mvsqW x 0 a 0) s = .next (t.raises i (encA 0x27 0 a 0 9) vSquint 0 0)) ∧
      (t.enclosed n = false → still → bits q 15 14 = 0 →
        (r.toNat < 8 → exec (.mvsqR x d 0 0) s = .next (t.done i d (vget y.s r.toNat Cap.null))) ∧
        (16 ≤ r.toNat → r.toNat < 24 →
          exec (.mvsqR x d 0 0) s = .next (t.done i d (vget (vget y.win w Win.zero).p (r.toNat - 16) Cap.null))) ∧
        (24 ≤ r.toNat →
          exec (.mvsqR x d 0 0) s = .next (t.done i d (vget (vget y.win w Win.zero).x (r.toNat - 24) Cap.null))) ∧
        (w = y.wptr → windowsLegal n y.wptr y.live = true → exec (.mvsqR x d 0 0) s = .next (t.done i d (t.rd n r)) ∧
          exec (.mvsqW x 0 a 0) s = .next ((t.wr n r (t.rd i a)).doneOnly i))) ∧
      (t.enclosed n = false → still → bits q 15 14 = 1 →
        (∀ v, t.specRead n r.toNat = some v → exec (.mvsqR x d 0 0) s = .next (t.done i d v)) ∧
        (∀ k, y.specWrite n r.toNat (t.rd i a) = some k →
          exec (.mvsqW x 0 a 0) s = .next (((t.modStall n (fun _ => k)).rouse n).doneOnly i))) ∧
      (t.enclosed n = false → 2 ≤ bits q 15 14 → exec (.mvsqR x d 0 0) s = .next (t.illegal i (encA 0x27 d 0 0 8)) ∧
        exec (.mvsqW x 0 a 0) s = .next (t.illegal i (encA 0x27 0 a 0 9))) ∧
      (t.enclosed n = false → ¬ still → bits q 15 14 = 0 → (t.stall i).stepping = false →
        Answers (exec (.mvsqR x d 0 0) s) (fun u => (u.stall i).state = .far ∧ (u.stall i).pcc = (t.stall i).pcc ∧
          (u.stall i).squintReq = some { sel := q, op := .inl d, insn := encA 0x27 d 0 0 8 } ∧ u.rd i d = t.rd i d))) ∧
  (∀ (st : StallId) (r : SquintReq) (d : Reg) (v : Capv) (s : State),
      let i := st.val
      let n := sqStall r.sel
      (s.stall i).squintReq = some r → r.op = .inl d → n ≠ i → (s.stall n).state = .running → s.coreOut (n / 8) = false →
      s.inFence n = false → s.coreHeld (n / 8) = false → s.coreHeld (i / 8) = false →
      (s.stall i).haltReq = none → (s.stall i).stopReq = false → (s.stall i).wptr < 16 → s.sqRead r.sel n = some v →
      Answers (exec (.squintAccess st) s) (fun u =>
        (u.stall n).state = .ready ∧ (u.stall n).pcc = (s.stall n).pcc ∧ u.rd i d = v ∧ (u.stall i).state = .ready ∧
        (u.stall i).squintReq = none ∧ (u.stall i).pcc = Cap.setAddr (s.stall i).pcc (Cap.addr (s.stall i).pcc + 4)))

/-! ## The scheduler and events (R146, R167 to R174, R249 to R252) -/

/-- R167, R169: STALL_SWITCH on a core with no RUNNING stall switches in a READY stall of the highest priority, and with
several of it the first after the stall that ran last; a RUNNING stall that has issued gives way to a higher priority only. -/
def Obligations.SwitchPicksThePriority : Prop :=
  ∀ (core : Fin 4) (n : Fin 8) (s : State),
    let c := core.val
    let at' := fun (k : Fin 8) => s.stall (8 * c + k.val)
    let order := fun (k : Fin 8) => (k.val + 15 - (s.core c).lastRan.val) % 8
    s.naveRuns = true → s.coreDown c = false → s.coreHeld c = false → (s.core c).fence = none →
    (∀ k, (at' k).stepping = false ∧ (at' k).waitFor = none) →
    (at' n).state = .ready →
    (∀ k, k ≠ n → (at' k).state = .ready → (at' k).prio.toNat < (at' n).prio.toNat ∨
      ((at' k).prio = (at' n).prio ∧ order n < order k)) →
    ((∀ k, (at' k).state ≠ .running) →
      Answers (exec (.stallSwitch core) s) (fun u => (u.stall (8 * c + n.val)).state = .running ∧ (u.core c).lastRan = n ∧
        (u.core c).issued = false ∧ (∀ k, k ≠ n → u.stall (8 * c + k.val) = at' k))) ∧
    (∀ r : Fin 8, (at' r).state = .running → (∀ k, (at' k).state = .running → k = r) → (s.core c).issued = true →
      Answers (exec (.stallSwitch core) s) (fun u =>
        if (at' r).prio.toNat < (at' n).prio.toNat then
          (u.stall (8 * c + n.val)).state = .running ∧ (u.stall (8 * c + r.val)).state = .ready
        else u = s))

/-- R168: QUANTUM_EXPIRY sends the running stall to READY where its quantum is not 0 and another stall of equal priority is
READY. R146, R166: the data of a miss bring a stall to READY, or to the stop that was asked for meanwhile. R174: the end of a
limiter's interval delivers an occurrence held, and the limiter runs again while LIMIT is not 0; with none held it stops. -/
def Obligations.QuantumMissAndLimiter : Prop :=
  ((∀ (core : Fin 4) (r k : Fin 8) (s : State),
      let c := core.val
      s.naveRuns = true → s.coreHeld c = false → (s.core c).fence = none → s.reg (aQuantum c) ≠ 0 → (s.stall (8 * c + r.val)).state = .running →
      (∀ j : Fin 8, (s.stall (8 * c + j.val)).state = .running → j = r) → (s.stall (8 * c + k.val)).state = .ready →
      (s.stall (8 * c + k.val)).prio = (s.stall (8 * c + r.val)).prio →
      exec (.quantumExpiry core) s = .next (s.modStall (8 * c + r.val) (fun t => { t with state := .ready }))) ∧
    (∀ (st : StallId) (s : State), (s.stall st.val).state = .miss → s.coreHeld (st.val / 8) = false → (s.stall st.val).haltReq = none →
      Answers (exec (.missDataArrival st) s) (fun u =>
        (u.stall st.val).state = (if (s.stall st.val).stopReq then .stopped else .ready) ∧ OnlyWrites s u st.val none))) ∧
  (∀ (n : Fin 64) (s : State), s.naveRuns = true → bit s.events.running n.val = true →
      (bit s.events.held n.val = true → n.val < 55 → s.reg (aTarget n.val) ≠ 0 →
        Answers (exec (.limiterIntervalEnd n) s) (fun u =>
          bit u.events.held n.val = false ∧ bit u.events.running n.val = decide (s.field (aLimit n.val) 15 0 ≠ 0) ∧
          u.events.flight = s.events.flight ++ [{ n := n.val, targets := s.reg (aTarget n.val) }])) ∧
      (bit s.events.held n.val = false → s.levelOn n.val = false →
        Answers (exec (.limiterIntervalEnd n) s) (fun u => bit u.events.running n.val = false ∧ u.events.flight = s.events.flight ∧
          (∀ k, k ≠ n.val → bit u.events.running k = bit s.events.running k))))

/-- R170, R172: EVENT_ARRIVAL: the event is pending in every target stall of the core that is neither OFF nor in LOCKDOWN, a
stall that waits for it becomes READY, and nothing is pending anywhere else that was not. -/
def Obligations.EventArrivesInItsTargets : Prop :=
  ∀ (n : Fin 64) (core : Fin 4) (f : EvFlight) (rest : List EvFlight) (s : State),
    let c := core.val
    s.events.flight = f :: rest → f.n = n.val → f.targets &&& coreMask c ≠ 0 → s.hasUnit c = true → s.flag aPark c = false →
    s.coreHeld c = false →
    Answers (exec (.eventArrival n core) s) (fun u =>
      (∀ j : Fin 8, let x := s.stall (8 * c + j.val)
        bit f.targets (8 * c + j.val) = true → x.state ≠ .off → x.state ≠ .lockdown →
        (u.stall (8 * c + j.val)).evpend = putBit x.evpend n.val true ∧
        (∀ d m, x.state = .waiting → x.waitFor = some (d, m) → bit (m &&& x.evmask) n.val = true →
          (u.stall (8 * c + j.val)).state = .ready)) ∧
      (∀ k, (k / 8 ≠ c ∨ bit f.targets k = false) → u.stall k = s.stall k) ∧
      u.events.flight = (if f.targets &&& ~~~ coreMask c = 0 then rest
        else { f with targets := f.targets &&& ~~~ coreMask c } :: rest) ∧ (∀ r, u.reg r = s.reg r))

/-! ## Exceptions (R230 to R248) -/

/-- R240, R241, R244, R245: an exception of a Nave stall that nothing masks, its save block in Close SRAM: frame 0 takes PCC,
S7, the fault address, CAUSE, INSN, SR, WPTR, LIVE, the level and DETAIL; S7 becomes TSBR, PCC is HCC at the vector's handler,
SR takes the exception's level and its bit 3. No other byte of memory and no other register changes. -/
def Obligations.ExceptionEntry : Prop :=
  ∀ (i : Nat) (x : Exc) (t : State), x.vec < 63 → TsbPlain t i 0 →
    let q := t.stall i
    let a := (Cap.addr q.tsbr).toNat
    let level := excLevel x.vec
    let u := t.settleExc i x
    masks q.sr level = false → (t.enclosed i = false ∨ x.vec ≠ vNest) → x.n < 4096 → q.wptr < 16 →
    u.readMem a 16 = toBytes 16 q.pcc.bits.toNat ∧ u.tagAt a = q.pcc.tag ∧
    u.readMem (a + 0x10) 16 = toBytes 16 (t.rd i 7).bits.toNat ∧ u.tagAt (a + 0x10) = (t.rd i 7).tag ∧
    u.readMem (a + 0x20) 8 = toBytes 8 x.faddr.toNat ∧
    u.readMem (a + 0x28) 4 = toBytes 4 (x.vec + x.n * 65536 + level * 0x10000000) ∧
    u.readMem (a + 0x2C) 4 = toBytes 4 x.insn.toNat ∧ u.readMem (a + 0x30) 4 = toBytes 4 q.sr.toNat ∧
    u.readMem (a + 0x34) 4 = [BitVec.ofNat 8 q.wptr, BitVec.ofNat 8 q.live, BitVec.ofNat 8 level, 1] ∧
    u.readMem (a + 0x38) 8 = toBytes 8 x.detail.toNat ∧
    (∀ k, k < a ∨ a + 64 ≤ k → u.readMem k 1 = t.readMem k 1) ∧
    (u.stall i).pcc = Cap.setAddr ⟨BitVec.ofNat 128 (ofBytes (t.readMem (a + 0x80) 16)), t.tagAt (a + 0x80)⟩
      (BitVec.ofNat 64 (0xFFFFFFFFF000 + 32 * x.vec)) ∧
    u.rd i 7 = q.tsbr ∧ (∀ r, r ≠ 7 → u.rd i r = t.rd i r) ∧
    (u.stall i).sr = putBit (putBits q.sr 2 0 level) 3 true ∧ (u.stall i).tsbr = q.tsbr ∧ (u.stall i).wptr = q.wptr ∧
    (u.stall i).live = q.live ∧ (∀ j, j ≠ i → ∀ r, u.rd j r = t.rd j r)

/-- R237 to R239, R242: an exception that SR masks escalates: vector 63 at level 7, its frame the second, CAUSE naming the
vector that was masked; at level 7 the stall enters LOCKDOWN instead, as it does without a save block. -/
def Obligations.EscalationAndLockdown : Prop :=
  ∀ (i : Nat) (x : Exc) (t : State), x.vec < 63 → i < 32 →
    let q := t.stall i
    let a := (Cap.addr q.tsbr).toNat
    let level := excLevel x.vec
    let u := t.settleExc i x
    (t.enclosed i = false ∨ x.vec ≠ vNest) →
    (masks q.sr level = true → bits q.sr 2 0 < 7 → TsbPlain t i 1 → x.n < 4096 →
      u.readMem (a + 64) 16 = toBytes 16 q.pcc.bits.toNat ∧
      u.readMem (a + 64 + 0x28) 4 = toBytes 4 (63 + x.vec * 256 + x.n * 65536 + level * 0x10000000) ∧
      (u.stall i).pcc = Cap.setAddr ⟨BitVec.ofNat 128 (ofBytes (t.readMem (a + 0x80) 16)), t.tagAt (a + 0x80)⟩
        (BitVec.ofNat 64 (0xFFFFFFFFF000 + 32 * 63)) ∧
      bits (u.stall i).sr 2 0 = 7 ∧ (∀ k, k < a + 64 ∨ a + 128 ≤ k → u.readMem k 1 = t.readMem k 1)) ∧
    (masks q.sr level = true → bits q.sr 2 0 = 7 → (u.stall i).state = .lockdown) ∧
    (tsbOk q.tsbr = false → (u.stall i).state = .lockdown ∧ (u.stall i).pcc = q.pcc)

/-- R230, R249, R233: TRAP completes and takes vector 20 with its number, PCC on the next instruction; INTERRUPT takes the
highest deliverable event at its own level and clears its EVPEND bit; a far fault that waits is taken when its stall runs. -/
def Obligations.TrapInterruptAndFarOutcome : Prop :=
  (∀ (st : Ctx) (n : BitVec 12) (s t : State), Issues s st.val t →
    exec (.trap st n 0 0) s = .next ((t.modStall st.val Stall.advance).settleExc st.val
      { vec := 20, n := n.toNat, faddr := 0, detail := 0,
        insn := BitVec.ofNat 32 (0x3D * 2 ^ 26 + n.toNat / 128 * 2 ^ 11 + 2 * 128 + n.toNat % 128) })) ∧
  (∀ (st : StallId) (n : Fin 55) (s : State),
    let i := st.val
    let level := s.field (aMode n.val) 6 4
    s.running i = true → (s.stall i).outcome = none → s.deliverable i n.val = true →
    (∀ k : Fin 55, k ≠ n → s.deliverable i k.val = true → s.field (aMode k.val) 6 4 < level ∨
      (s.field (aMode k.val) 6 4 = level ∧ n.val < k.val)) → TsbPlain s i 0 →
    Answers (exec (.interrupt st) s) (fun u =>
      (u.stall i).evpend = putBit (s.stall i).evpend n.val false ∧ bits (u.stall i).sr 2 0 = level ∧
      (u.stall i).pcc = Cap.setAddr ⟨BitVec.ofNat 128 (ofBytes (s.readMem ((Cap.addr (s.stall i).tsbr).toNat + 0x80) 16)),
        s.tagAt ((Cap.addr (s.stall i).tsbr).toNat + 0x80)⟩ (BitVec.ofNat 64 (0xFFFFFFFFF000 + 32 * 32)) ∧
      u.readMem (Cap.addr (s.stall i).tsbr).toNat 16 = toBytes 16 (s.stall i).pcc.bits.toNat ∧
      u.readMem ((Cap.addr (s.stall i).tsbr).toNat + 0x28) 4 = toBytes 4 (32 + n.val * 65536 + level * 0x10000000) ∧
      (∀ r, r ≠ 7 → u.rd i r = s.rd i r))) ∧
  (∀ (st : StallId) (x : Exc) (s : State), s.running st.val = true → (s.stall st.val).outcome = some x →
    exec (.farOutcome st) s = .next ((s.modStall st.val (fun t => { t with outcome := none })).settleExc st.val x))

/-- R247: RETX after the entry of an exception gives PCC, S7, SR, WPTR and LIVE back as they were before it, and changes no
memory: the entry and the return invert each other. -/
def Obligations.ReturnUndoesEntry : Prop :=
  ∀ (st : Ctx) (x : Exc) (t s : State), x.vec < 63 →
    let i := st.val
    let q := t.stall i
    let u := t.settleExc i x
    TsbPlain t i 0 → masks q.sr (excLevel x.vec) = false → (t.enclosed i = false ∨ x.vec ≠ vNest) → q.sr.toNat < 64 →
    windowsLegal i q.wptr q.live = true → q.sbuf = [] → Issues s i u → (u.stall i).userMode = false →
    Answers (exec (.retx st 0 0 0 0) s) (fun v =>
      (v.stall i).pcc = q.pcc ∧ v.rd i 7 = t.rd i 7 ∧ (v.stall i).sr = q.sr ∧ (v.stall i).wptr = q.wptr ∧ (v.stall i).live = q.live ∧
      (∀ r, v.rd i r = t.rd i r) ∧ (∀ k, v.readMem k 1 = u.readMem k 1))

/-! ## Special registers (R229, R231) -/

/-- R229, R231: MVSP.R reads each special register of its context; numbers beyond 0x10 are ILLEGAL, and TSBR, SQUINT and XROOT
are not for a user. MVSP.W writes each writable one within its fields, EVPEND by clearing the ones written; WPTR and LIVE only
where the windows stay legal (R150); PCC and the read-only registers are ILLEGAL to write. IDENT of a Nave stall holds the node
ID, 0 where the node has none or is the gateway, with core and stall number. -/
def Obligations.SpecialRegisters : Prop :=
  (∀ (st : Ctx) (d : Reg) (s t : State), Issues s st.val t →
      let i := st.val
      let q := t.stall i
      let read := fun (n : Nat) => exec (.mvspR st d 0 (BitVec.ofNat 5 n) 0) s
      let is := fun (n : Nat) (v : Capv) => read n = .next (t.done i d v)
      let int := fun (n : Nat) (v : W64) => read n = .next (t.doneInt i d v)
      is 0 q.pcc ∧ int 1 (q.sr.setWidth 64) ∧ int 3 (q.shut.setWidth 64) ∧ int 4 (BitVec.ofNat 64 q.wptr) ∧
      int 5 (BitVec.ofNat 64 q.live) ∧ int 6 q.evmask ∧ int 7 q.evpend ∧ is 8 q.stowp ∧ int 0xA (q.fpsr.setWidth 64) ∧
      int 0xB (q.fpcr.setWidth 64) ∧ (i < 32 → int 0xD (t.core (i / 8)).cycle ∧ int 0xF t.tt.now) ∧ int 0xE q.run ∧
      (i < 32 → ∀ k, t.ring.node = some k → t.gateway = false → int 0x10 (BitVec.ofNat 64 (k.toNat * 256 + i))) ∧
      (i < 32 → t.ring.node = none ∨ t.gateway = true → int 0x10 (BitVec.ofNat 64 i)) ∧
      (q.userMode = false → is 2 q.tsbr ∧ int 9 q.squint ∧ int 0xC q.xroot) ∧
      (q.userMode = true → ∀ n, n ∈ [2, 9, 0xC] →
        read n = .next (t.raises i (encA 0x3D d 0 (BitVec.ofNat 5 n) 0) vPriv 0 0)) ∧
      (∀ n, 0x11 ≤ n → n < 32 → read n = .next (t.illegal i (encA 0x3D d 0 (BitVec.ofNat 5 n) 0)))) ∧
  (∀ (st : Ctx) (a : Reg) (s t : State), Issues s st.val t →
      let i := st.val
      let q := t.stall i
      let c := t.rd i a
      let x := t.rdInt i a
      let write := fun (n : Nat) => exec (.mvspW st 0 a (BitVec.ofNat 5 n) 0) s
      let puts := fun (n : Nat) (k : Stall) => write n = .next ((t.modStall i (fun _ => k)).doneOnly i)
      puts 0xA { q with fpsr := x.setWidth 32 &&& 0x1F } ∧ puts 0xB { q with fpcr := x.setWidth 32 &&& 0x11F3 } ∧
      puts 3 { q with shut := x.setWidth 32 } ∧
      (q.userMode = false →
        puts 1 { q with sr := x.setWidth 32 &&& 0x3F } ∧ puts 2 { q with tsbr := c } ∧ puts 6 { q with evmask := x } ∧
        puts 7 { q with evpend := q.evpend &&& ~~~ x } ∧ puts 8 { q with stowp := c } ∧ puts 9 { q with squint := x &&& 0xFFFF } ∧
        puts 0xC { q with xroot := x &&& 0xFFF00FFFFFFFF001 } ∧
        (windowsLegal i x.toNat q.live = true → puts 4 { q with wptr := x.toNat }) ∧
        (windowsLegal i q.wptr x.toNat = true → puts 5 { q with live := x.toNat })) ∧
      (windowsLegal i x.toNat q.live = false → write 4 = .next (t.illegal i (encA 0x3D 0 a 4 128))) ∧
      (q.userMode = true → ∀ n, n ∈ [1, 2, 6, 7, 8, 9, 0xC] →
        write n = .next (t.raises i (encA 0x3D 0 a (BitVec.ofNat 5 n) 128) vPriv 0 0)) ∧
      (∀ n, n = 0 ∨ 0xD ≤ n → n < 32 → write n = .next (t.illegal i (encA 0x3D 0 a (BitVec.ofNat 5 n) 128))))


/-! ## Floating point (R203 to R214) -/

/-- R204, R205, R209 to R213: each floating-point instruction of a Nave stall delivers, in the rounding mode of its RM field or
of FPCR, the result and the flags of its operation on the operands' values, through the traps that FPCR enables; FLI writes its
immediate in the upper halfword of the format. FCLASS and the FSGNJ rows raise nothing. -/
def Obligations.FloatingPointInstructions : Prop :=
  ∀ (st : Ctx) (d a b : Reg) (sgl : Bool) (rm : BitVec 3) (imm : BitVec 16) (s t : State), Issues s st.val t → st.val < 32 →
    let i := st.val
    let q := t.stall i
    let z := bit q.fpcr 12
    let m := if sgl then f32 else f64
    let w := 2 ^ (if sgl then 32 else 64)
    let bitsOf := fun r => (t.rdInt i r).toNat % w
    let x := m.value z (bitsOf a)
    let y := m.value z (bitsOf b)
    let k := m.value z (bitsOf d)
    let op := if sgl then 0x31 else 0x30
    let r := rm.toNat
    let ends := fun (o : Out) (insn : W32) (v : FRes) => o = .next (t.fpDone i insn d (BitVec.ofNat 64 v.val) v.flags)
    let cmp := fun fn b => encA 0x33 d a b (fn + 256 * sgl.toNat)
    let long := (t.rdInt i a)
    let low := fun (f : Fmt) => f.value z (long.toNat % 2 ^ (1 + f.eb + f.mb))
    let toI := fun (o : Out) (fn : Nat) (f : Fmt) (g : Nat) (lo hi : Int) =>
      o = .next (t.fpDone i (encA 0x32 d a 0 (fn + 256 * r)) d (BitVec.ofInt 64 (toInt g lo hi (low f)).1) (toInt g lo hi (low f)).2)
    (∀ g : Nat, (r < 4 ∧ g = r) ∨ (r = 7 ∧ g = bits q.fpcr 1 0) →
      ends (exec (.fadd st d a b sgl rm) s) (encA op d a b (0 + 256 * r)) (m.add g z x y) ∧
      ends (exec (.fsub st d a b sgl rm) s) (encA op d a b (1 + 256 * r)) (m.add g z x y.negate) ∧
      ends (exec (.fmul st d a b sgl rm) s) (encA op d a b (2 + 256 * r)) (m.mul g z x y) ∧
      ends (exec (.fdiv st d a b sgl rm) s) (encA op d a b (3 + 256 * r)) (m.div g z x y) ∧
      ends (exec (.fsqrt st d a 0 sgl rm) s) (encA op d a 0 (4 + 256 * r)) (m.sqrt g z x) ∧
      ends (exec (.fma st d a b sgl rm) s) (encA op d a b (8 + 256 * r)) (m.fma g z false x y k) ∧
      ends (exec (.fms st d a b sgl rm) s) (encA op d a b (9 + 256 * r)) (m.fma g z false x y k.negate) ∧
      ends (exec (.fnma st d a b sgl rm) s) (encA op d a b (10 + 256 * r)) (m.fma g z true x y k) ∧
      ends (exec (.fnms st d a b sgl rm) s) (encA op d a b (11 + 256 * r)) (m.fma g z true x y k.negate) ∧
      ends (exec (.fcvtSD st d a 0 rm) s) (encA 0x32 d a 0 (0 + 256 * r)) (f32.convert g z (low f64)) ∧
      ends (exec (.fcvtBfS st d a 0 rm) s) (encA 0x32 d a 0 (2 + 256 * r)) (fbf.convert g z (low f32)) ∧
      toI (exec (.fcvtLD st d a 0 rm) s) 0x10 f64 g (-2 ^ 63) (2 ^ 63 - 1) ∧ toI (exec (.fcvtLuD st d a 0 rm) s) 0x11 f64 g 0 (2 ^ 64 - 1) ∧
      toI (exec (.fcvtWD st d a 0 rm) s) 0x12 f64 g (-2 ^ 31) (2 ^ 31 - 1) ∧ toI (exec (.fcvtWuD st d a 0 rm) s) 0x13 f64 g 0 (2 ^ 32 - 1) ∧
      toI (exec (.fcvtLS st d a 0 rm) s) 0x14 f32 g (-2 ^ 63) (2 ^ 63 - 1) ∧ toI (exec (.fcvtLuS st d a 0 rm) s) 0x15 f32 g 0 (2 ^ 64 - 1) ∧
      toI (exec (.fcvtWS st d a 0 rm) s) 0x16 f32 g (-2 ^ 31) (2 ^ 31 - 1) ∧ toI (exec (.fcvtWuS st d a 0 rm) s) 0x17 f32 g 0 (2 ^ 32 - 1) ∧
      ends (exec (.fcvtDL st d a 0 rm) s) (encA 0x32 d a 0 (0x20 + 256 * r)) (f64.ofInt g z long.toInt) ∧
      ends (exec (.fcvtDLu st d a 0 rm) s) (encA 0x32 d a 0 (0x21 + 256 * r)) (f64.ofInt g z long.toNat) ∧
      ends (exec (.fcvtSL st d a 0 rm) s) (encA 0x32 d a 0 (0x22 + 256 * r)) (f32.ofInt g z long.toInt) ∧
      ends (exec (.fcvtSLu st d a 0 rm) s) (encA 0x32 d a 0 (0x23 + 256 * r)) (f32.ofInt g z long.toNat)) ∧
    ends (exec (.fcvtDS st d a 0 0) s) (encA 0x32 d a 0 1) (f64.convert 0 z (low f32)) ∧
    ends (exec (.fcvtSBf st d a 0 0) s) (encA 0x32 d a 0 3) (f32.convert 0 z (low fbf)) ∧
    ends (exec (.fmin st d a b sgl 0) s) (encA op d a b 5) (m.minMax false x y) ∧
    ends (exec (.fmax st d a b sgl 0) s) (encA op d a b 6) (m.minMax true x y) ∧
    ends (exec (.feq st d a b sgl 0) s) (cmp 0 b) (fEq x y) ∧ ends (exec (.flt st d a b sgl 0) s) (cmp 1 b) (fLt x y) ∧
    ends (exec (.fle st d a b sgl 0) s) (cmp 2 b) (fLe x y) ∧
    ends (exec (.fclass st d a 0 sgl 0) s) (cmp 3 0) ⟨m.classOf (bitsOf a), 0⟩ ∧
    ends (exec (.fsgnj st d a b sgl 0) s) (cmp 4 b) ⟨m.withSign (bitsOf a) (m.signOf (bitsOf b)), 0⟩ ∧
    ends (exec (.fsgnjn st d a b sgl 0) s) (cmp 5 b) ⟨m.withSign (bitsOf a) (!m.signOf (bitsOf b)), 0⟩ ∧
    ends (exec (.fsgnjx st d a b sgl 0) s) (cmp 6 b) ⟨m.withSign (bitsOf a) (m.signOf (bitsOf a) != m.signOf (bitsOf b)), 0⟩ ∧
    exec (.fliS st d 0 imm) s = .next (t.doneInt i d (BitVec.ofNat 64 (imm.toNat * 2 ^ 16))) ∧
    exec (.fliD st d 0 imm) s = .next (t.doneInt i d (BitVec.ofNat 64 (imm.toNat * 2 ^ 48)))

/-- R204 to R208: a result without NX and without NV or DZ is exact: delivering ±m × 2^e gives the bits of that very value; and
the default NaN answers ∞ − ∞, 0 × ∞, 0 / 0, ∞ / ∞ and the root of a negative number, with NV alone; x / 0 is an infinity with
DZ; a NaN operand gives the default NaN, with NV only where one is signalling. -/
def Obligations.FloatingPointResults : Prop :=
  ∀ (f : Fmt), f = f32 ∨ f = f64 ∨ f = fbf →
    (∀ (rm : Nat) (neg : Bool) (m : Nat) (e : Int), rm < 4 → (f.round rm false neg m e).flags = 0 → m ≠ 0 →
      ∃ (m' : Nat) (e' : Int), f.value false (f.round rm false neg m e).val = .fin neg m' e' ∧
        m' * 2 ^ (e' - min e e').toNat = m * 2 ^ (e - min e e').toNat) ∧
    (∀ (rm : Nat) (z n k : Bool) (m : Nat) (e e' : Int) (y : FVal), rm < 4 → m ≠ 0 →
      f.add rm z (.inf n) (.inf (!n)) = ⟨f.nan, 16⟩ ∧ f.mul rm z (.fin n 0 e) (.inf k) = ⟨f.nan, 16⟩ ∧
      f.mul rm z (.inf k) (.fin n 0 e) = ⟨f.nan, 16⟩ ∧ f.div rm z (.fin n 0 e) (.fin k 0 e') = ⟨f.nan, 16⟩ ∧
      f.div rm z (.inf n) (.inf k) = ⟨f.nan, 16⟩ ∧ f.sqrt rm z (.fin true m e) = ⟨f.nan, 16⟩ ∧
      f.div rm z (.fin n m e) (.fin k 0 e') = ⟨(if n = k then 0 else f.signBit) + f.inf, 8⟩ ∧
      (y.snan = false → f.add rm z (.nan false) y = ⟨f.nan, 0⟩ ∧ f.mul rm z y (.nan false) = ⟨f.nan, 0⟩) ∧
      f.add rm z (.nan true) y = ⟨f.nan, 16⟩ ∧ f.add rm z (.fin false m e) (.fin true m e) = ⟨if rm = 2 then f.signBit else 0, 0⟩)

/-! ## Atomics (R217 to R220) -/

/-- R217 to R220: an atomic of a Nave stall in Close SRAM performs its earlier stores, answers the old value in D and stores the
new one, which takes the granule's tag away; CAS stores only where the old value is D's; CAS.C compares and stores 129 bits. -/
def Obligations.AtomicsInCloseSram : Prop :=
  ∀ (st : Ctx) (d a b : Reg) (w : Bool) (s t : State), Issues s st.val t →
    let i := st.val
    let ea := (Cap.addr (t.rd i a)).toNat
    let n := if w then 4 else 8
    let u := t.beginReg i
    let old : W64 := BitVec.ofNat 64 (ofBytes (u.readMem ea n))
    let res : W64 := if w then (old.setWidth 32).signExtend 64 else old
    let x : W64 := if w then (t.rdInt i b).setWidth 32 |>.setWidth 64 else t.rdInt i b
    let sx : Int := if w then ((t.rdInt i b).setWidth 32).toInt else (t.rdInt i b).toInt
    let want : W64 := if w then (t.rdInt i d).setWidth 32 |>.setWidth 64 else t.rdInt i d
    let use := Use.atL2 (t.decided i .atomic false ea).attr
    let gives := fun (o : Out) (v : W64) => o = .next ((u.writeTarget use ea (toBytes n v.toNat) []).doneInt i d res)
    u.sound →
    (Reaches t i a ea n [permLoad, permStore] .atomic false → ea % n = 0 →
      gives (exec (.amoswap st d a b w 0) s) x ∧ gives (exec (.amoadd st d a b w 0) s) (old + x) ∧
      gives (exec (.amoand st d a b w 0) s) (old &&& x) ∧ gives (exec (.amoor st d a b w 0) s) (old ||| x) ∧
      gives (exec (.amoxor st d a b w 0) s) (old ^^^ x) ∧
      gives (exec (.amomin st d a b w 0) s) (if res.toInt < sx then old else x) ∧
      gives (exec (.amomax st d a b w 0) s) (if res.toInt < sx then x else old) ∧
      gives (exec (.amominu st d a b w 0) s) (if old.toNat < x.toNat then old else x) ∧
      gives (exec (.amomaxu st d a b w 0) s) (if old.toNat < x.toNat then x else old) ∧
      (old = want → gives (exec (.cas st d a b w 0) s) x) ∧
      (old ≠ want → exec (.cas st d a b w 0) s = .next (u.doneInt i d res))) ∧
    (∀ c : Capv, c = ⟨BitVec.ofNat 128 (ofBytes (u.readMem ea 16)), u.tagAt ea⟩ → ea % 16 = 0 → (t.rd i b).tag = false →
      Reaches t i a ea 16 [permLoad, permStore, permLoadCap] .atomic false →
      (c ≠ t.rd i d → exec (.casC st d a b false 0) s = .next (u.done i d c)) ∧
      (c = t.rd i d → exec (.casC st d a b false 0) s =
        .next ((u.writeTarget use ea (toBytes 16 (t.rd i b).bits.toNat) []).done i d c))) ∧
    (Reaches t i a ea n [permLoad, permStore] .atomic false → ea % n ≠ 0 →
      exec (.amoswap st d a b w 0) s = .next (t.raises i (encA 0x38 d a b (16 * w.toNat)) vBounds ea (a.toNat + 64)))

/-! ## Fences and XINV (R143, R224 to R227, R275, R276) -/

/-- R225, R227, R275, R276, R143: a fence performs every earlier access of its stall; FENCE.INS of a Nave stall empties its
core's L1 instruction cache; FENCE.XLT ends with every XINV of the stall complete on every core, FENCE.SCR with every commit of
a rule in effect; XINV is put before its cores, and completes on a core with the entries it covers gone; GRANT.FENCE holds its
core until it completes. Reserved for the Sacristy core and users. -/
def Obligations.FencesAndInvalidations : Prop :=
  (∀ (st : Ctx) (a : Reg) (s t : State), Issues s st.val t →
    let i := st.val
    exec (.fenceMem st 0 0 0) s = .next ((t.beginReg i).doneOnly i) ∧
    (i < 32 → exec (.fenceIns st 0 0 0) s =
      .next (State.doneOnly { t.beginReg i with caches := (t.beginReg i).caches.dropIns (i / 8) } i)) ∧
    (i = 32 → exec (.fenceIns st 0 0 0) s = .next ((t.beginReg i).doneOnly i)) ∧
    ((t.beginReg i).stall i).sbuf = [] ∧ (∀ x ∈ (t.beginReg i).events.crossings, x.1 ≠ i) ∧
    (i < 32 → (t.stall i).userMode = true →
      exec (.fenceXlt st 0 0 0) s = .next (t.raises i (encA 0x3C 0 0 0 2) vPriv 0 0) ∧
      exec (.xinv st 0 a 0) s = .next (t.raises i (encA 0x3C 0 a 0 0x10) vPriv 0 0)) ∧
    (i < 32 → (t.stall i).userMode = false →
      Answers (exec (.fenceXlt st 0 0 0) s) (fun u => (u.stall i).xinvs = [] ∧
        (∀ (c : Fin 4), ∀ x ∈ (u.core c.val).xinv, x.st ≠ i) ∧ (∀ r, u.rd i r = t.rd i r)) ∧
      Answers (exec (.fenceScr st 0 0 0) s) (fun u => u.screen.old = [] ∧ (∀ r, u.rd i r = t.rd i r)) ∧
      (∀ (everywhere all : Bool) (c : Instr),
        c = (if everywhere then (if all then .xinvGa st 0 0 0 else .xinvG st 0 a 0)
             else (if all then .xinvA st 0 0 0 else .xinv st 0 a 0)) →
        Answers (exec c s) (fun u => ∀ k : Fin 4, ∃ x : List XinvReq,
          (u.core k.val).xinv = (t.core k.val).xinv ++ x ∧
          (k.val = i / 8 ∨ (everywhere = true ∧ t.coreOut k.val = false) →
            (everywhere = true → t.coreOut (i / 8) = false) →
            ∃ q, x = [q] ∧ q.st = i ∧ q.addr = (if all then none else some (t.rdInt i a)) ∧ q.id ∈ (u.stall i).xinvs) ∧
          (k.val ≠ i / 8 → (everywhere = false ∨ t.coreOut k.val = true) → x = []))) ∧
      Answers (exec (.grantFence st 0 0 0) s) (fun u => (u.core (i / 8)).fence = some (i, []) ∧
        (u.stall i).pcc = (t.stall i).pcc ∧ ∀ j, j / 8 = i / 8 → u.canIssue j = false))) ∧
  (∀ (core : Fin 4) (q : XinvReq) (rest : List XinvReq) (s : State), (s.core core.val).xinv = q :: rest →
    s.holds92 (.core core) = false →
    Answers (exec (.xinvComplete core) s) (fun u =>
      (∀ x ∈ (u.core core.val).xinv, x.id ≠ q.id) ∧
      (q.addr = none → (u.core core.val).tlb = [] ∧ (u.core core.val).walk = []) ∧
      (∀ a, q.addr = some a → a.toNat < 2 ^ 48 → (∀ e ∈ (u.core core.val).tlb, e.covers a.toNat = false ∧ e ∈ (s.core core.val).tlb) ∧
        (∀ e ∈ (s.core core.val).tlb, e.covers a.toNat = false → e ∈ (u.core core.val).tlb)) ∧
      (∀ n : Fin 8, (u.stall (8 * core.val + n.val)).sbuf = []))) ∧
  (∀ (core : Fin 4) (i : StallId) (s : State), (s.core core.val).fence = some (i.val, []) →
    s.holds92 (.core core) = false →
    Answers (exec (.grantFenceComplete core) s) (fun u => (u.core core.val).fence = none ∧
      (u.stall i.val).pcc = Cap.setAddr (s.stall i.val).pcc (Cap.addr (s.stall i.val).pcc + 4) ∧ OnlyWrites s u i.val none))

/-! ## Grants (R135 to R142) -/

/-- R137, R138: GRANT of a range of Close SRAM, its checks passed, writes the free entry of its INDEX in the grant table (base
and requester, length, VALID and the rights; GEN stays) and returns the receipt; R142: with the receipt of the entry it frees it
under the next GEN, or retires it at GEN 0xFF, and returns null. No other byte of memory changes. -/
def Obligations.GrantsAndRevocations : Prop :=
  ∀ (st : Ctx) (d a b : Reg) (index : Nat) (s t : State), Issues s st.val t → st.val < 32 →
    let i := st.val
    let c := t.rd i a
    let q := t.rdInt i b
    let at' := t.grantAddr index
    let n := Cap.top c - Cap.base c
    let hi : W64 := BitVec.ofNat 64 (ofBytes (t.readMem (at' + 8) 8))
    let gen := bits hi 39 32
    (t.stall i).userMode = false → (t.stall i).xlt = false → (t.stall i).wptr < 16 → c.tag = true → index < t.grantCount →
    0x10000000 ≤ at' → at' + 16 ≤ 0x10200000 → t.touchesSealed at' 16 = false → t.mem.latent = [] → t.mem.poisonGranules = [] →
    (Cap.kind c = 0 → Cap.has c permGrant = true → (bit q 8 = true → Cap.has c permLoad = true) →
      (bit q 9 = true → Cap.has c permStore = true) → (bit q 8 = true ∨ bit q 9 = true) → Cap.has c permNoExport = false →
      0 < n → 0x10000000 ≤ Cap.base c → Cap.top c ≤ 0x10200000 → t.touchesSealed (Cap.base c).toNat n.toNat = false →
      t.grantEn = true → t.ring.node ≠ some (BitVec.ofNat 8 (bits q 7 0)) → bits q 31 16 = index → bits hi 41 40 = 0 →
      Answers (exec (.grantIssue st d a b) s) (fun u =>
        u.rd i d = Cap.receipt (BitVec.ofNat 16 index) t.grantEpoch (BitVec.ofNat 8 gen) ∧
        ofBytes (u.readMem at' 8) = (Cap.base c).toNat + bits q 7 0 * 2 ^ 48 ∧
        ofBytes (u.readMem (at' + 8) 8) = (n.toNat - 1) + gen * 2 ^ 32 + 2 ^ 40 + (bit q 8).toNat * 2 ^ 42 + (bit q 9).toNat * 2 ^ 43 ∧
        (∀ k, k < at' ∨ at' + 16 ≤ k → u.readMem k 1 = t.readMem k 1) ∧ (∀ r, r ≠ d → u.rd i r = t.rd i r))) ∧
    (Cap.kind c = 4 → bits (Cap.addr c) 63 48 = index → bits (Cap.addr c) 47 40 = t.grantEpoch.toNat →
      bits (Cap.addr c) 39 32 = gen → bits hi 41 40 = 1 →
      Answers (exec (.grantRevoke st d a b) s) (fun u =>
        u.rd i d = Cap.null ∧ u.readMem at' 8 = t.readMem at' 8 ∧
        bits (BitVec.ofNat 64 (ofBytes (u.readMem (at' + 8) 8))) 41 40 = (if gen = 255 then 2 else 0) ∧
        bits (BitVec.ofNat 64 (ofBytes (u.readMem (at' + 8) 8))) 39 32 = (if gen = 255 then 255 else gen + 1) ∧
        (∀ k, k < at' ∨ at' + 16 ≤ k → u.readMem k 1 = t.readMem k 1) ∧ (∀ r, r ≠ d → u.rd i r = t.rd i r))) ∧
    (Cap.kind c = 4 → bits (Cap.addr c) 63 48 = index → bits (Cap.addr c) 39 32 ≠ gen →
      Answers (exec (.grantRevoke st d a b) s) (fun u => u.rd i d = Cap.null ∧ ∀ k, u.readMem k 1 = t.readMem k 1))


/-! ## Memory-mapped registers (R5 to R13, R23, R24) -/

/-- R6, R7, R10, R13: a write of a register changes its writable fields: a reserved value leaves its field, a one clears a W1C
bit (where hardware set it in the same cycle it stays 1, R9), reserved bits stay. The low word of a pair is held until the high
word commits both; a 64-bit write commits at once; a read of the low word latches the high word, which the next read of that
address returns. R8: the read of a receive FIFO takes its head away. R23: a crossing ends 2 to 4 destination cycles after it
began, unless the island relocks. -/
def Obligations.RegisterRows : Prop :=
  ∀ (w : Initiator) (s : State),
    let u := s.rowBegin w
    (∀ (n : Fin 64) (d : BitVec 64), RegOpen s w (aLimit n.val) 4 .store →
      Answers (exec (.registerWrite w (BitVec.ofNat 44 (aLimit n.val)) .b4 d) s) (fun v =>
        v.reg (aLimit n.val) = putBits (u.reg (aLimit n.val)) 15 0 (bits d 15 0) ∧ (∀ b, b ≠ aLimit n.val → v.reg b = u.reg b))) ∧
    (∀ (n : Fin 55) (d : BitVec 64), RegOpen s w (aMode n.val) 4 .store → u.reg aEnclose = 0 →
      Answers (exec (.registerWrite w (BitVec.ofNat 44 (aMode n.val)) .b4 d) s) (fun v =>
        v.flag (aMode n.val) 0 = bit d 0 ∧
        v.field (aMode n.val) 6 4 = (if 1 ≤ bits d 6 4 ∧ bits d 6 4 ≤ 6 then bits d 6 4 else u.field (aMode n.val) 6 4) ∧
        (∀ b, b ≠ aMode n.val → v.reg b = u.reg b))) ∧
    (∀ d : BitVec 64, RegOpen s w aFall 4 .store →
      Answers (exec (.registerWrite w (BitVec.ofNat 44 aFall) .b4 d) s) (fun v =>
        (AMap.get? u.fresh aFall = none → v.reg aFall = u.reg aFall &&& ~~~ (d.setWidth 32 &&& 0x7FFFFF)) ∧
        (∀ k : Fin 32, bit (v.reg aFall) k.val = (bit (u.reg aFall) k.val && !(bit d k.val && decide (k.val < 23))) ∨
          (bit (u.freshBits aFall) k.val = true ∧ bit (v.reg aFall) k.val = bit (u.reg aFall) k.val)))) ∧
    (∀ d : BitVec 32, RegOpen s w (aRing 0x100) 4 .store →
      Answers (exec (.pairLowWrite w (BitVec.ofNat 44 (aRing 0x100)) d) s) (fun v =>
        v.regs = u.regs ∧ AMap.get? v.holds (aRing 0x100) = some d)) ∧
    (∀ d lo : BitVec 32, RegOpen s w (aRing 0x104) 4 .store → u.grantEn = false →
      (AMap.get? u.holds (aRing 0x100) = some lo ∨ (AMap.get? u.holds (aRing 0x100) = none ∧ lo = u.reg (aRing 0x100))) →
      Answers (exec (.pairHighWrite w (BitVec.ofNat 44 (aRing 0x104)) d) s) (fun v =>
        v.reg (aRing 0x100) = putBits (u.reg (aRing 0x100)) 31 20 (bits lo 31 20) ∧
        v.reg (aRing 0x104) = putBits (u.reg (aRing 0x104)) 11 0 (bits d 11 0) ∧ v.holds = AMap.erase u.holds (aRing 0x100) ∧
        (∀ b, b ≠ aRing 0x100 → b ≠ aRing 0x104 → v.reg b = u.reg b))) ∧
    (∀ d : BitVec 64, RegOpen s w (aRing 0x100) 8 .store → u.grantEn = false →
      Answers (exec (.pairWrite64 w (BitVec.ofNat 44 (aRing 0x100)) d) s) (fun v =>
        v.reg (aRing 0x100) = putBits (u.reg (aRing 0x100)) 31 20 (bits d 31 20) ∧
        v.reg (aRing 0x104) = putBits (u.reg (aRing 0x104)) 11 0 (bits d 43 32) ∧ v.holds = AMap.erase u.holds (aRing 0x100))) ∧
    (RegOpen s w (aRing 0x100) 4 .load →
      Answers (exec (.pairLowRead w (BitVec.ofNat 44 (aRing 0x100))) s) (fun v =>
        v.answer = (u.reg (aRing 0x100)).setWidth 64 ∧ AMap.get? v.latches (aRing 0x100) = some (u.reg (aRing 0x104)) ∧ v.regs = u.regs)) ∧
    (∀ hi : BitVec 32, RegOpen s w (aRing 0x104) 4 .load → AMap.get? u.latches (aRing 0x100) = some hi →
      Answers (exec (.rcFieldRead w (BitVec.ofNat 44 (aRing 0x104)) .b4) s) (fun v => v.answer = hi.setWidth 64 ∧ v.regs = u.regs)) ∧
    (∀ n : Fin 2, RegOpen s w (aLsio (0x80C + 0x100 * n.val)) 4 .load → AMap.get? u.fresh (aLsio (0x80C + 0x100 * n.val)) = none →
      exec (.rcFieldRead w (BitVec.ofNat 44 (aLsio (0x80C + 0x100 * n.val))) .b4) s =
        .next ((u.lsioRead (0x80C + 0x100 * n.val)).rowAnswer w (aLsio (0x80C + 0x100 * n.val))
          ((u.lsioView (0x80C + 0x100 * n.val)).setWidth 64))) ∧
    (∀ (st : Fin 32) (dst : Island) (k : Nat), exec (.islandCrossing st dst k) s =
      .next (if 2 ≤ k ∧ k ≤ 4 ∧ dst ∉ s.power.relocking then
        { s with events := { s.events with crossings := s.events.crossings.erase (st.val, dst) } } else s))

/-! ## Power, start and resets (chapter 03) -/

/-- R42, R55, R68, R69, R73, R88, R92 to R94, R101, R102: EXT_RST_N, VIN, the rails and the references: what resets or
power-cycles the Nave leaves it down, with the cause recorded for the next start; a power-on reset leaves the Sacristy held with
its fuses; a press on EXT_RST_N with bank D unpowered is not seen (R42); a fault of a rail that is up, or that was to come up,
takes all Nave rails down; the others set the condition that the start waits for. -/
def Obligations.SupplyAndReferences : Prop :=
  ∀ s : State,
    (∀ ns, 1000 ≤ ns → s.power.navePhase ≠ .down → s.bankUp 3 = true → Answers (exec (.extRstNAssert ns) s) (fun u =>
      NaveDown u ∧ u.power.extRstN = false ∧ u.power.nextCauses.getLsbD 1 = true ∧ u.power.railsUp = s.power.railsUp ∧
      u.stall 32 = s.stall 32)) ∧
    (∀ ns, ns < 100 → exec (.extRstNAssert ns) s = .next s) ∧
    (∀ ns, 1000 ≤ ns → s.bankUp 3 = false →
      exec (.extRstNAssert ns) s = .next { s with power := { s.power with extRstN := false } }) ∧
    exec .extRstNRelease s = .next { s with power := { s.power with extRstN := true } } ∧
    Answers (exec .vinPor s) (fun u => NaveDown u ∧ u.power.sacPhase = .porHeld ∧ u.power.railsUp = false ∧ u.power.vinOn = false ∧
      u.sac.mux.taken = true ∧ u.chip = s.chip ∧ u.stall 32 = Stall.init ∧ u.sac.powerons = s.sac.powerons + 1) ∧
    Answers (exec .vinOn s) (fun u => u.power.vinOn = true ∧ u.power.vpre = true ∧ u.regs = s.regs ∧ u.stalls = s.stalls) ∧
    Answers (exec .vinBo s) (fun u => u.power.brownOut = true ∧ bit (u.stall 32).evpend 2 = true ∧ ∀ i : Fin 32, u.stall i.val = s.stall i.val) ∧
    Answers (exec .vinBoClr s) (fun u => u.power.brownOut = false ∧ u.power.boWait = false ∧ bit (u.stall 32).evpend 2 = true) ∧
    Answers (exec .vinUv s) (fun u => NaveDown u ∧ u.power.railsUp = false ∧ u.power.uvWait = true ∧
      u.power.nextCauses.getLsbD 9 = true ∧ bit (u.stall 32).evpend 2 = true) ∧
    (∀ r, r ∈ naveRails → s.power.railsUp = true ∨ (s.power.navePhase = .verified ∧ s.railsMay = true) →
      Answers (exec (.railOutOfRange r) s) (fun u =>
        NaveDown u ∧ u.power.railsUp = false ∧ u.power.cycleWait = true ∧ u.power.nextCauses.getLsbD 10 = true)) ∧
    (∀ r, r = .vsacCore ∨ r = .vsacIo → Answers (exec (.railOutOfRange r) s) (fun u => NaveDown u ∧ u.power.sacPhase = .porHeld ∧
      u.power.vinOn = s.power.vinOn ∧ u.sac.powerons = s.sac.powerons + 1)) ∧
    (s.power.boWait = false → s.power.brownOut = false → s.power.refGood = true → s.sac.derate.shutdown = false →
      Answers (exec .naveRailRestart s) (fun u => u.power.cycleWait = false ∧ u.power.uvWait = false)) ∧
    (s.power.railsUp = true → Answers (exec .referenceLost s) (fun u =>
      NaveDown u ∧ u.power.refGood = false ∧ u.power.railsUp = false ∧ u.power.nextCauses.getLsbD 11 = true)) ∧
    (s.power.railsUp = false → Answers (exec .referenceLost s) (fun u => u.power.refGood = false ∧ u.power.nextCauses.getLsbD 11 = true)) ∧
    Answers (exec .referenceRestored s) (fun u => u.power.refGood = true ∧ u.stalls = s.stalls) ∧
    Answers (exec .srefclkLost s) (fun u => u.power.srefGood = false ∧ ∀ n : Fin 4, u.unitReady (8 + n.val) = false ∧
      (vget u.ring.lanes n.val Lane.init).state ≠ .inService ∧ (vget u.tp n.val TPortState.init).block = false) ∧
    Answers (exec .srefclkRecovery s) (fun u => u.power.srefGood = true ∧ ∀ n : Fin 4,
      (vget s.ring.lanes n.val Lane.init).state = .waiting → (vget u.ring.lanes n.val Lane.init).state = .training) ∧
    (∀ i, i ∈ s.power.relocking → Answers (exec (.islandClockResume i) s) (fun u => i ∉ u.power.relocking ∧
      ∀ j, j ≠ i → (j ∈ u.power.relocking ↔ j ∈ s.power.relocking)))

/-- R74, R77, R81 to R84, R109, R147, R314, R316, R317: the cold start step by step: power-on reset released with the straps
sampled, the self tests, the vigil path armed, the firmware and the Nave image verified, the rails up and the Nave base admitted
where the budget holds its allowance, NC0 out of reset with the boot root in PCC and S0 and no other stall running, the training
step of a memory channel begun with the DRAM map fixed and the DRAM out of reset, and the channel trained with its contents
cleared, left out without a device, or failed. -/
def Obligations.ColdStart : Prop :=
  ∀ s : State,
    (∀ b role t, s.power.sacPhase = .porHeld → s.power.vinOn = true → Answers (exec (.powerOnResetRelease b role t) s) (fun u =>
      u.power.sacPhase = .rom ∧ u.straps.bootsel = b ∧ u.straps.role = role ∧ u.straps.testenN = t ∧ (u.stall 32).state = .running)) ∧
    (∀ c, s.power.sacPhase = .rom → Answers (exec (.sacristySelfTestDone c) s) (fun u =>
      u.power.sacPhase = .tested ∧ u.power.refGood = c)) ∧
    (∀ mv, s.power.sacPhase = .tested → Answers (exec (.vigilPathArmed mv) s) (fun u =>
      u.power.sacPhase = .armed ∧ u.power.vigilArmed = true ∧ u.power.navePhase = s.power.navePhase)) ∧
    (∀ sig, s.power.sacPhase = .armed → Answers (exec (.sacristyFirmwareVerified sig) s) (fun u =>
      u.power.sacPhase = (if (s.chooseImage 0 sig).1.isSome then .running else .armed))) ∧
    (∀ sig, s.mayStart = true → s.straps.bootsel = 2 → s.sac.upd.startedOnce = false → s.power.railsUp = false →
      Answers (exec (.naveImageVerified sig) s) (fun u => u.power.navePhase = .verified ∧ u.sac.upd.recovery = true)) ∧
    (∀ a b c d, s.power.navePhase = .verified → s.power.railsUp = false → s.railsMay = true → s.power.extRstN = true ∨ d = .openBank →
      Answers (exec (.naveRailsUp a b c d) s) (fun u => u.power.railsUp = true ∧ u.power.banks = #v[a, b, c, d] ∧
        (s.admits = true → s.fitsIn baseAllowance = true → u.power.navePhase = .base ∧
          (s.hasUnit 18 = true → u.unitReady 18 = true) ∧ (s.hasUnit 16 = true → u.unitReady 16 = true)) ∧
        (s.admits = false ∨ s.fitsIn baseAllowance = false → u.power.navePhase = .verified))) ∧
    (s.power.navePhase = .base → s.extHolds = false → s.power.starting = some 0 ∨ (s.admits = true ∧ s.fits 0 = true) →
      Answers (exec .nc0LeavesReset s) (fun u =>
        u.power.navePhase = .running ∧ (u.stall 0).state = .running ∧ (u.stall 0).pcc = Cap.bootRoot ∧ u.rd 0 0 = Cap.bootRoot ∧
        (u.stall 0).xroot = 0 ∧ (u.stall 0).sr = 0 ∧ (∀ r : Reg, r ≠ 0 → u.rd 0 r = Cap.null) ∧
        (∀ i : Fin 8, i ≠ 0 → u.stall i.val = Stall.init) ∧ (∀ i, 8 ≤ i → u.stall i = s.stall i) ∧ bit u.pins 1 = true ∧
        (s.hasUnit 0 = true → u.unitReady 0 = true))) ∧
    (∀ dev : DramDevice, s.power.starting = none → s.power.admitPaused = false → s.naveRuns = true →
      s.nextUnit = some 14 → s.fits 14 = true → s.mem.mapFixed = false → s.chip.dram[0] = some dev → dramOk dev = true →
      Answers (exec .unitAdmitted s) (fun u => u.power.starting = some 14 ∧ u.power.ddrResetN.getLsbD 0 = true ∧
        (u.mem.chan[0]).state = .training ∧ (u.mem.chan[0]).dev = some dev ∧ u.pair (aChBase 0) = BitVec.ofNat 64 aDram ∧
        (u.pair (aChSize 0)).toNat = 2 ^ dev.dens.toNat * 2 ^ 30 / 128 * 123)) ∧
    (∀ dev : DramDevice, (s.mem.chan[0]).state = .training → (s.mem.chan[0]).dev = some dev → dramOk dev = true →
      s.hasUnit 14 = true → s.pair (aChBase 0) = BitVec.ofNat 64 aDram →
      let n := (s.pair (aChSize 0)).toNat
      ∀ temp, Answers (exec (.lpddrChannelTrained 0 true true temp) s) (fun u => u.unitReady 14 = true ∧
        (u.mem.chan[0]).state = .ready ∧ (u.mem.chan[0]).temp = temp ∧
        ∀ k, k < n → u.readMem (aDram + k) 1 = [0] ∧ u.tagAt (aDram + k) = false ∧ u.target (aDram + k) = .dram)) ∧
    (∀ (ch : Fin 2) (high low : Bool) (temp : BitVec 8), (s.mem.chan[ch]).state = .training →
      ((s.mem.chan[ch]).dev = none → Answers (exec (.lpddrChannelTrained ch high low temp) s) (fun u =>
        (u.mem.chan[ch]).state = .none ∧ bit u.power.started (14 + ch.val) = false)) ∧
      (∀ dev, (s.mem.chan[ch]).dev = some dev → dramOk dev = false ∨ high = false ∨ low = false →
        Answers (exec (.lpddrChannelTrained ch high low temp) s) (fun u =>
          (u.mem.chan[ch]).state = .failed ∧ bit u.power.started (14 + ch.val) = false)))

/-- R76 to R79, R94, R101, R103, R105, R147, R415, R452, R453: the ledger's evaluation, which sets the budget in force; the
admission of the next unit that fits; the end of its start phase, its READY (a tenant lane's only with SREFCLK within limits,
the Clerestory's only where its self test passed) and its start timeout; a core that becomes ready has its stalls as reset
leaves them; parking and unparking; a software reset with its key; and the Sacristy's resets and their end, which resumes the
start where it stood. -/
def Obligations.AdmissionParkingAndResets : Prop :=
  ∀ s : State,
    (∀ mv, Answers (exec (.ledgerEvaluation mv) s) (fun u => u.power.vinMv = mv ∧
      u.ledgerBudget = min s.sac.budget (mv * 51 / 100) ∧ u.field aLedger 31 16 = min u.ledgerBudget 65535 ∧ u.field aLedger 15 0 = min s.used 65535 ∧ u.stalls = s.stalls)) ∧
    (∀ n, s.power.starting = none → s.power.admitPaused = false → s.naveRuns = true → s.nextUnit = some n →
      (n.val ≠ 12 ∨ s.sealedOk = true) → s.fits n.val = true → Answers (exec .unitAdmitted s) (fun u =>
        u.power.starting = some n ∧ bit u.power.started n.val = true ∧ bit u.power.toStart n.val = false)) ∧
    (∀ n, s.power.starting = some n → s.unitReady n.val = true ∨ (4 ≤ n.val ∧ n.val < 12) →
      exec .startPhaseEnd s = .next { s with power := { s.power with starting := none } }) ∧
    (∀ (n : UnitBit) (ok : Bool), (8 ≤ n.val ∧ n.val < 12 ∧ s.power.srefGood = true) ∨ (1 ≤ n.val ∧ n.val < 4) →
      bit s.power.started n.val = true → s.hasUnit n.val = true →
      Answers (exec (.unitReadyRise ⟨n, ok⟩) s) (fun u => u.unitReady n.val = true ∧ u.power.starting ≠ some n ∧
        (n.val < 4 → s.unitReady n.val = false → ∀ k : Fin 8, u.stall (8 * n.val + k.val) = Stall.init))) ∧
    (∀ n : UnitBit, 8 ≤ n.val → n.val < 12 → s.power.srefGood = false → ∀ ok, exec (.unitReadyRise ⟨n, ok⟩) s = .next s) ∧
    (∀ ok, bit s.power.started 12 = true → s.sealedOk = true → s.hasUnit 12 = true → s.unitReady 12 = false →
      Answers (exec (.unitReadyRise ⟨12, ok⟩) s) (fun u => u.unitReady 12 = ok)) ∧
    (∀ n : UnitBit, bit s.power.started n.val = true → s.unitReady n.val = false → n.val < 4 ∨ 8 ≤ n.val →
      Answers (exec (.unitStartTimeout n) s) (fun u => bit u.power.started n.val = false ∧ bit u.power.outUntilStart n.val = true)) ∧
    (∀ n : UnitBit, s.naveRuns = true → noPark n.val = false → s.hasUnit n.val = true → s.flag aPark n.val = false →
      Answers (exec (.unitPark n) s) (fun u => u.flag aPark n.val = true ∧ u.unitReady n.val = false ∧
        bit u.power.started n.val = false ∧ (n.val < 4 → ∀ k : Fin 8, u.stall (8 * n.val + k.val) = Stall.init))) ∧
    (∀ n : UnitBit, s.naveRuns = true → s.flag aPark n.val = true → n.val ≠ 22 →
      Answers (exec (.unitUnpark n) s) (fun u => u.flag aPark n.val = false ∧ bit u.power.toStart n.val = true)) ∧
    (∀ d : BitVec 32, s.naveRuns = true → (bits d 31 16 = 0x5AC7 → bit d 0 = true →
        Answers (exec (.sysctlResetReq d) s) (fun u => NaveDown u ∧ u.power.nextCauses.getLsbD 2 = true)) ∧
      (bits d 31 16 ≠ 0x5AC7 → exec (.sysctlResetReq d) s = .next s)) ∧
    (∀ ooo, s.power.sacPhase ≠ .porHeld →
      Answers (exec .lockstepMismatch s) (fun u => u.power.sacPhase = .inReset ∧ u.sac.mux.taken = true ∧ u.stall 32 = Stall.init ∧
        u.flag aCause 12 = true ∧ u.unitReady 20 = false ∧ (∀ i : Fin 32, u.stall i.val = s.stall i.val)) ∧
      Answers (exec (.watchdogExpiry ooo) s) (fun u => u.power.sacPhase = .inReset ∧ u.sac.mux.taken = true ∧ u.flag aCause 12 = true)) ∧
    (∀ v, s.power.sacPhase = .running → Answers (exec (.watchdogRestart v) s) (fun u =>
      (s.sac.wdFirst = false → v = Config.watchdogFirst → u.power.sacPhase = .running ∧ u.sac.wdFirst = true) ∧
      (s.sac.wdFirst = true → v = Config.watchdogSecond → u.power.sacPhase = .running ∧ u.sac.wdFirst = false) ∧
      (s.sac.wdFirst = true → v ≠ Config.watchdogSecond → u.power.sacPhase = .inReset) ∧
      (s.sac.wdFirst = false → v ≠ Config.watchdogFirst → u.power.sacPhase = .inReset))) ∧
    (∀ sig, s.power.sacPhase = .inReset → Answers (exec (.sacristyResetComplete sig) s) (fun u =>
      (s.power.vigilArmed = true → (u.power.sacPhase = .running ∧ u.power.sacCauses = 0) ∨ u.power.sacPhase = .armed) ∧
      (s.power.vigilArmed = false → u.power.sacPhase = (if s.power.refJudged then .tested else .rom)) ∧
      (u.stall 32).state = .running ∧ (∀ i : Fin 32, u.stall i.val = s.stall i.val)))

/-! ## Town time (R95 to R100) -/

/-- R97 to R100: a measurement beyond 1 µs steps the counter to the source, within it the counter stays; VALID becomes 1 and
HOLDOVER 0. The loss of a source sets HOLDOVER. PPS_IN, unseen while bank D is unpowered (R42), makes a waiting load, or
measures to the nearest second; PPS_OUT rises at a whole second and falls. The Sacristy takes the counter while VALID is 1.
SYSCTL_TT_SET loads at once or at the next edge. -/
def Obligations.TownTime : Prop :=
  ∀ (v : BitVec 64) (s : State), s.naveRuns = true → s.tmr.pending = false →
    let off : Int := (v.toNat : Int) - s.tt.now.toNat
    (s.ttSrc ≠ 0 → Answers (exec (.townTimeMeasurement v) s) (fun u =>
      (1000 < off ∨ off < -1000 → u.tt.now = v ∧ u.field aTtStatus 15 8 = min 255 (s.field aTtStatus 15 8 + 1) ∧
        (off < 0 → u.flag aTtStatus 5 = true)) ∧
      (-1000 ≤ off → off ≤ 1000 → u.tt.now = s.tt.now ∧ u.field aTtStatus 15 8 = s.field aTtStatus 15 8 ∧
        -500000 ≤ u.tt.trimPpb ∧ u.tt.trimPpb ≤ 500000) ∧
      u.flag aTtStatus 2 = true ∧ u.flag aTtStatus 4 = false ∧ u.tt.inUse = true)) ∧
    (s.ttSrc = 3 → s.bankUp 3 = true → s.tt.setWait = some v → Answers (exec .ppsInEdge s) (fun u => u.tt.now = v ∧ u.tt.setWait = none ∧
      u.flag aTtStatus 2 = true)) ∧
    (s.bankUp 3 = false → exec .ppsInEdge s = .next s) ∧
    (s.ttSrc = 3 → s.bankUp 3 = true → s.tt.setWait = none → Answers (exec .ppsInEdge s) (fun u => u.flag aTtStatus 2 = true ∧ u.tt.inUse = true)) ∧
    (s.flag aTtCtrl 7 = true → s.tt.now.toNat + 10 ^ 9 < 2 ^ 64 → Answers (exec .ppsOutRise s) (fun u =>
      u.tt.ppsOut = true ∧ u.tt.now.toNat = (s.tt.now.toNat / 10 ^ 9 + 1) * 10 ^ 9)) ∧
    Answers (exec .ppsOutEnd s) (fun u => u.tt.ppsOut = false ∧ u.tt.now = s.tt.now) ∧
    (s.tt.inUse = true → Answers (exec .townTimeSourceLost s) (fun u => u.flag aTtStatus 4 = true ∧ u.tt.now = s.tt.now ∧
      u.tt.trimPpb = s.tt.trimPpb ∧ u.tt.inUse = false)) ∧
    (s.ttValid = true → s.fw = true → Answers (exec .sacristyTimeResync s) (fun u => u.tt.sac = s.tt.now ∧ u.tt.now = s.tt.now)) ∧
    (s.gateway = true → s.ttSrc = 0 → Answers (exec (.ttSetWrite v) s) (fun u => u.tt.now = v ∧ u.flag aTtStatus 2 = true ∧
      u.field aTtStatus 15 8 = min 255 (s.field aTtStatus 15 8 + 1))) ∧
    (s.gateway = true → s.ttSrc = 3 → exec (.ttSetWrite v) s = .next { s with tt := { s.tt with setWait := some v } }) ∧
    (s.gateway = false → exec (.ttSetWrite v) s = .next s)


/-! ## The Screen and memory (R283 to R298, R307 to R315) -/

/-- R289, R290, R292, R298, R302, R303, R310, R311, R315: a commit takes the pending copies of an unlocked rule as one rule and
keeps the old values for initiators that it has not met; a locked rule takes no write; the commit in effect leaves no store
waiting. POP removes the oldest log record. The scrubber counts a corrected error of Close SRAM and leaves the data; an
uncorrectable one poisons its granule and takes its tag; one of a DRAM line that the L2 does not hold poisons the line and
leaves its tags. A refresh reads the temperature. A write of an initiator other than a core leaves the lines that it touches in
no L1 data cache, and an access to the sealed range leaves the caches as they are. -/
def Obligations.ScreenAndMemoryRows : Prop :=
  ∀ (s : State),
    (∀ (w : Initiator) (n : Fin 32) (d : BitVec 32), s.unitOpen 18 → scrMayWrite (s.whoIs w).cls = true →
      (s.ruleLocked n.val = true → exec (.screenRuleCommit w n d) s = .next s) ∧
      (s.ruleLocked n.val = false → Answers (exec (.screenRuleCommit w n d) s) (fun u =>
        u.reg (aScrBase n.val) = vget s.screen.pendBase n.val 0 ∧ u.reg (aScrLimit n.val) = vget s.screen.pendLimit n.val 0 ∧
        u.reg (aScrRights n.val) = vget s.screen.pendRights n.val 0 ∧
        u.flag (aScrAttr n.val) 8 = bit d 8 ∧ u.flag (aScrAttr n.val) 3 = bit d 3 ∧ u.flag (aScrAttr n.val) 16 = bit d 16 ∧
        u.field (aScrAttr n.val) 2 0 = (if bits d 2 0 ≤ 3 then bits d 2 0 else s.field (aScrAttr n.val) 2 0) ∧
        (∀ k : Fin 32, k ≠ n → u.ruleNow k.val = s.ruleNow k.val) ∧
        u.screen.old.map Prod.fst = s.screen.old.map Prod.fst ++ [n.val]))) ∧
    (∀ (w : Initiator) (n : Fin 32) (d : BitVec 32), s.unitOpen 18 → scrMayWrite (s.whoIs w).cls = false →
      exec (.screenRuleCommit w n d) s = .next s) ∧
    (∀ (n : Fin 32) (o : OldRule) (rest : List (Nat × OldRule)), s.screen.old = (n.val, o) :: rest →
      Answers (exec (.screenRuleInEffect n) s) (fun u => u.screen.old = rest ∧ (∀ i : Fin 32, (u.stall i.val).sbuf = []) ∧
        ∀ i r, u.rd i r = s.rd i r)) ∧
    (∀ w, s.unitOpen 18 → scrMayWrite (s.whoIs w).cls = true →
      Answers (exec (.scrLogPop w) s) (fun u => u.screen.log = s.screen.log.drop 1 ∧ u.regs = s.regs)) ∧
    (∀ (pa : BitVec 44), 0x10000000 ≤ pa.toNat → pa.toNat < 0x10200000 → s.errorsAt pa.toNat = [] →
      Answers (exec (.memoryScrub pa (some ⟨6, false⟩)) s) (fun u => u.pair aMemCe = s.pair aMemCe + 1 ∧
        (∀ k, u.readMem k 1 = s.readMem k 1) ∧ (∀ k, u.tagAt k = s.tagAt k) ∧ u.poisoned pa.toNat = s.poisoned pa.toNat) ∧
      Answers (exec (.memoryScrub pa (some ⟨6, true⟩)) s) (fun u => u.pair aMemUe = s.pair aMemUe + 1 ∧
        u.poisoned pa.toNat = true ∧ u.tagAt pa.toNat = false ∧ (∀ k, k / 16 ≠ pa.toNat / 16 → u.tagAt k = s.tagAt k))) ∧
    (∀ (pa : BitVec 44), s.target pa.toNat = .dram → s.errorsAt pa.toNat = [] →
      s.mem.latentTags.contains (pa.toNat / 8192) = false → inCache s.caches.l2 (pa.toNat / 64) = false →
      Answers (exec (.memoryScrub pa (some ⟨5, true⟩)) s) (fun u => u.pair aMemUe = s.pair aMemUe + 1 ∧
        u.poisoned pa.toNat = true ∧ (∀ k, u.tagAt k = s.tagAt k) ∧ (∀ k, u.readMem k 1 = s.readMem k 1))) ∧
    (∀ pa bs, s.target pa = .dram → ∀ (c : Fin 4), ∀ k ∈ linesOf pa bs.length,
      inCache (vget (s.writeTarget .dma pa bs []).caches.l1d c.val []) k = false) ∧
    (∀ (u : Use) pa n, (∀ k ∈ linesOf pa n, s.touchesSealed (64 * k) 64 = true) → (s.cacheRead u pa n).caches = s.caches) ∧
    (∀ (ch : Fin 2) (rank : Bool) (t : BitVec 8), (s.mem.chan[ch]).state = .ready →
      Answers (exec (.dramRefresh ch rank t) s) (fun u => (u.mem.chan[ch]).temp = t ∧ u.mem.cells = s.mem.cells ∧ u.mem.tags = s.mem.tags))

/-! ## The ring (chapters 11 to 13) -/

/-- R320, R321, R324 to R328, R340, R343, R347, R352: a lane agrees on keys with a good signature, goes into service at the
least of the span's rate, the derating's and the peer's, waits and trains again, ratchets a key at 2^31 codewords and not
before, counts bad codewords and trains after the eighth in a row, takes credit and half the round trip less the turnarounds
from LINK codewords, once a bay, and leaves service where it loses lock, or where a planned retraining is asked for, which on a
bonded port fails no port. -/
def Obligations.RingLanes : Prop :=
  ∀ (n : LaneId) (s : State),
    let l := s.laneOf n.val
    let ctr := fun (u : State) (off : Nat) => u.pair (aLane n.val off)
    (∀ peer nonce pub ok, l.state = .training → s.laneMayTrain n.val = true → s.fw = true →
      Answers (exec (.laneKeyAgreement n peer nonce pub ok) s) (fun u => (u.laneOf n.val).state = .keyAgreement ∧
        (u.laneOf n.val).txKey.isSome = ok ∧ (u.laneOf n.val).rxKey.isSome = ok ∧
        (u.laneOf n.val).peer = (if ok then some peer else none))) ∧
    (∀ peer rate, l.state = .keyAgreement → s.laneMayTrain n.val = true → s.noProt n.val = false → l.peer = some peer →
      l.txKey.isSome = true → l.rxKey.isSome = true → s.hasUnit (4 + n.val) = true → rate ≠ 0 →
      s.field (aLane n.val 0) 1 0 ≠ 0 → min (s.spanMax (n.val % 2)) (rateAllowed s.sac.derate.clocks.toNat) ≠ 0 →
      Answers (exec (.laneInService n peer rate true) s) (fun u => (u.laneOf n.val).state = .inService ∧ u.unitReady (4 + n.val) = true ∧
        (u.laneOf n.val).rate.toNat =
          min (min (s.spanMax (n.val % 2)) (rateAllowed s.sac.derate.clocks.toNat)) rate.toNat ∧
        (u.portOf (n.val % 2)).failed = false)) ∧
    (s.laneMayTrain n.val = true → l.state = .training → Answers (exec (.laneTrainingRetry n) s) (fun u =>
      (u.laneOf n.val).state = .waiting)) ∧
    (s.laneMayTrain n.val = true → l.state = .waiting → Answers (exec (.laneTrainingRetry n) s) (fun u =>
      (u.laneOf n.val).state = .training)) ∧
    (∀ k, l.txKey = some k → Answers (exec (.linkKeyRatchet n false) s) (fun u => (u.laneOf n.val).rxKey = l.rxKey ∧
      (u.laneOf n.val).txKey = some (if 2 ^ 31 ≤ k.counter
        then { k with key := (hmac384 k.key (ratchetInfo ++ [1])).take 32, counter := 0 } else k))) ∧
    (∀ ctl body, l.state = .inService → l.prot = false → l.badRun < 7 →
      Answers (exec (.codewordRx n .uncorrectable ctl body) s) (fun u => ctr u 0x18 = ctr s 0x18 + 1 ∧
        (u.laneOf n.val).badRun = l.badRun + 1 ∧ (u.laneOf n.val).state = .inService)) ∧
    (∀ ctl body, l.state = .inService → l.badRun = 7 →
      Answers (exec (.codewordRx n .uncorrectable ctl body) s) (fun u => (u.laneOf n.val).state = .training ∧ u.unitReady (4 + n.val) = false)) ∧
    (∀ ctl body, l.state = .inService → l.prot = false → bits ctl 3 0 = 3 → bit ctl 14 = false → bit ctl 15 = false →
      Answers (exec (.codewordRx n .corrected ctl body) s) (fun u => ctr u 0x10 = ctr s 0x10 + 1 ∧ (u.laneOf n.val).badRun = 0 ∧
        (u.laneOf n.val).state = .inService)) ∧
    (∀ freed empty d b, s.laneUp n.val = true → Answers (exec (.linkCodewordRx n freed empty d b) s) (fun u =>
      (u.dir (n.val % 2)).credited = freed ∧ (u.dir (n.val % 2)).wicketFree = empty ∧
      (∀ x, b = some x → (u.dir (n.val % 2)).beacon = some x) ∧
      (∀ x, d = some x → l.measured = false → (u.laneOf n.val).delays.head? = some ((x.round - x.far - x.near) / 2)) ∧
      (∀ x, d = some x → l.measured = true → (u.laneOf n.val).delays = l.delays))) ∧
    (∀ ns, l.state = .inService → Answers (exec (.lossOfLock ⟨n, ns⟩) s) (fun u => (u.laneOf n.val).state = .training ∧
      u.unitReady (4 + n.val) = false ∧ ctr u 0x28 = ctr s 0x28 + 1 ∧ (u.laneOf n.val).txRf = true ∧
      (u.laneOf n.val).los = (l.los || ns))) ∧
    (s.ringOn = true → s.laneUp n.val = true → s.bonded (n.val % 2) = false →
      Answers (exec (.plannedWrap n) s) (fun u => (u.laneOf n.val).txRetrain = true ∧ (u.portOf (n.val % 2)).planned = true ∧
        u.laneUp n.val = true)) ∧
    (s.ringOn = true → s.bonded (n.val % 2) = true →
      Answers (exec (.plannedWrap n) s) (fun u => (u.laneOf n.val).state = .training ∧ (u.portOf (n.val % 2)).failed = false))

/-- R329, R330, R336 to R341, R344, R346: bays and markers, with TIME the last multiple of 125 µs of town time; folds, and an
unfold exactly where R346 lets it; the enumeration, whose end advances the epoch of a node with or without a new ID; joining and
assigning, notices, isolation. -/
def Obligations.RingTopology : Prop :=
  ∀ (s : State), s.ringOn = true →
    (s.master = true → s.portUp 0 = true → s.ring.times.head? ≠ some s.bayTime → Answers (exec .bayStart s) (fun u =>
      u.ring.bays = s.ring.bays + 1 ∧ u.ring.times.head? = some s.bayTime ∧
      (u.dir 0).markerTx.map Marker.time = some (BitVec.ofNat 64 (s.tt.now.toNat / 125000 * 125000)) ∧ (u.dir 0).markerTx.map Marker.gwserial = some s.chip.serial ∧
      (u.dir 0).markerTx.map Marker.corr = some 0)) ∧
    (∀ (r : RingId) (m : Marker) (k : Nat), s.master = false → s.portDown r.val = false →
      Answers (exec (.markerRx r m k) s) (fun u => u.ring.isolated = false ∧ u.ring.everMarked = true ∧
        (s.ring.times.contains m.time = false → u.ring.lastMarker = some r) ∧
        u.topoNodes = m.nodes.toNat % 512 ∧ (u.dir r.val).markerTx.map Marker.time = some m.time ∧
        (u.dir r.val).markerTx.map Marker.hops = some (if m.hops = 255 then 255 else m.hops + 1) ∧
        (u.dir r.val).markerTx.map Marker.corr = some (m.corr + BitVec.ofInt 64 (s.spanDelay r.val * 1024 + k)))) ∧
    (∀ p : PortId, (s.portOf p.val).folded = false → (s.portOf p.val).failed = true ∨ (s.portOf p.val).planned = true →
      Answers (exec (.portFold p) s) (fun u => (u.portOf p.val).folded = true ∧ (u.portOf (1 - p.val)).folded = (s.portOf (1 - p.val)).folded)) ∧
    (∀ p : PortId, s.mayUnfold p.val = true →
      Answers (exec (.portUnfold p) s) (fun u => (u.portOf p.val).folded = false ∧ (u.portOf p.val).planned = false)) ∧
    (∀ p : PortId, s.mayUnfold p.val = false → exec (.portUnfold p) s = .next s) ∧
    (s.master = true → s.ring.enumBusy = false → s.portUp 0 = true → 10 ≤ s.ring.bays →
      Answers (exec .enumStart s) (fun u => u.ring.enumBusy = true ∧ u.ring.assigned = [])) ∧
    (∀ w d, s.holds92 .ringSwitch = false → s.master = true → s.ring.enumBusy = false → s.portUp 0 = true → bit d 0 = true →
      s.flag (aRing 0x10) 8 = false → Answers (exec (.ringEnumGo w d) s) (fun u => u.ring.enumBusy = true)) ∧
    (∀ r next excess gw hops wrapped, s.master = false → s.ring.stopped = false → wrapped = false ∨ s.ring.enumId = none →
      next.toNat ≤ 255 → Answers (exec (.enumRx r next excess gw ⟨hops, wrapped⟩) s) (fun u =>
        u.ring.enumId = some (some (next.setWidth 8)) ∧ u.ring.node = none)) ∧
    (∀ n gw id, s.master = false → s.ring.enumId = some id →
      Answers (exec (.enumDoneRx n gw) s) (fun u => u.ring.node = id ∧ u.ring.enumerated = true ∧
        u.field (aRing 0x10C) 7 0 = (s.field (aRing 0x10C) 7 0 + 1) % 256 ∧ u.flag (aRing 0x28) 0 = true)) ∧
    (∀ n gw, s.master = false → s.ring.enumId = none → Answers (exec (.enumDoneRx n gw) s) (fun u => u.ring.node = s.ring.node ∧
      u.field (aRing 0x10C) 7 0 = (s.field (aRing 0x10C) 7 0 + 1) % 256)) ∧
    (s.gateway = false → s.ring.node = none → s.ring.everMarked = true → s.ring.isolated = false →
      Answers (exec .joinTimer s) (fun u => ∃ d : Fin 2, ∃ q : Queued,
        vget (u.dir d.val).loc 0 [] = vget (s.dir d.val).loc 0 [] ++ [q] ∧ q.frame.type = 3 ∧ q.frame.noid = true ∧
        q.frame.payload.take 8 = toBytes 8 s.chip.serial.toNat)) ∧
    (∀ x : Assigned, ∀ serial, s.master = true → s.ring.assigned = [x] → x.serial = serial →
      Answers (exec (.joinRx serial) s) (fun u => u.ring.assigned = [x])) ∧
    (∀ id, s.ring.node = none → s.master = false → Answers (exec (.assignRx s.chip.serial id) s) (fun u => u.ring.node = some id ∧
      ∀ e ∈ u.ring.ledger, e.serial ≠ s.chip.serial)) ∧
    (∀ node port, Answers (exec (.noticeRx 1 node port) s) (fun u => u.flag (aRing 0x28) 4 = true ∧
      u.field (aRing 0x28) 23 16 = node.toNat)) ∧
    (s.ring.isolated = false → Answers (exec .nodeIsolated s) (fun u => u.ring.isolated = true ∧ u.flag (aRing 0x28) 5 = true))

/-- R140, R141, R332, R350, R353, R354, R360, R363 to R367: SAFE cells, frames that pass, in the pool or in the wicket as they
were sent, and leave; the next local frame of a class is the oldest; beacons, the CTRL queues and their retry, and the grant
inbox. -/
def Obligations.RingFrames : Prop :=
  ∀ (s : State), s.ringOn = true →
    (∀ (r : RingId) (slot me : BitVec 8) (cell : List Byte), s.ring.node = some me → slot ≠ me → leField cell 2 1 % 2 = 1 →
      leField cell 0 1 = me.toNat → AMap.get? s.ring.safeLast slot.toNat = none →
      Answers (exec (.safeCellRx r slot cell) s) (fun u => AMap.get? u.ring.safeRx slot.toNat = some (cell.take 256) ∧
        u.flag (aRing (0x910 + 4 * (slot.toNat / 32))) (slot.toNat % 32) = true)) ∧
    (∀ (r : RingId) (f : Frame), f.cls = 3 → f.bcast = false → f.wrapped = false → f.noid = false → s.nodeNum ≠ some f.dest.toNat →
      s.nodeNum ≠ some f.src.toNat → s.portDown r.val = false → f.hops < 255 →
      (unitsOf (framesOf (vget (s.dir r.val).transit 2 [])) + f.units ≤ 4096 → Answers (exec (.frameRx r ⟨f, false⟩) s) (fun u =>
        framesOf (vget (u.dir r.val).transit 2 []) = framesOf (vget (s.dir r.val).transit 2 []) ++ [{ f with hops := f.hops + 1 }] ∧
        (u.dir r.val).wicket = (s.dir r.val).wicket ∧ (∀ a, u.reg a = s.reg a))) ∧
      ((s.dir r.val).wicket = none → Answers (exec (.frameRx r ⟨f, true⟩) s) (fun u =>
        (u.dir r.val).wicket = some { f with hops := f.hops + 1 } ∧ (u.dir r.val).transit = (s.dir r.val).transit ∧
        (∀ a, u.reg a = s.reg a)))) ∧
    (∀ (r : RingId) (q : Queued) (rest : List Queued), s.portDown r.val = false → s.portDown (1 - r.val) = false →
      (s.dir r.val).wicket = none → (∀ c : Fin 4, vget (s.dir r.val).transit c.val [] = []) → (s.dir r.val).beacon = none →
      vget (s.dir r.val).loc 0 [] = q :: rest → (∀ x ∈ rest, q.ord ≤ x.ord) → s.ring.ctrlTx = [] → s.ring.node.isSome = true →
      q.frame.cls = 1 → vget (s.dir r.val).loc 1 [] = [] → s.quiet r.val q.frame = true →
      vget (s.dir r.val).sent 0 0 = vget (s.dir r.val).credited 0 0 → q.frame.units ≤ 256 →
      Answers (exec (.frameTxStart r) s) (fun u => (u.dir r.val).lastTx = some q.frame ∧ vget (u.dir r.val).loc 0 [] = rest ∧
        vget (u.dir r.val).sent 0 0 = vget (s.dir r.val).sent 0 0 + BitVec.ofNat 32 q.frame.units)) ∧
    (∀ r : RingId, Answers (exec (.beaconLapse r) s) (fun u => (u.dir r.val).beacon = none)) ∧
    (∀ w d me, s.holds92 .ringSwitch = false → s.ring.node = some me → bit d 8 = true → Answers (exec (.safeTxGo w d) s) (fun u =>
      u.ring.safeSeq = s.ring.safeSeq + 1 ∧ u.ownCell.getD 1 0 = me ∧
      ∃ c n, u.ring.safeTx = some (c, n, false) ∧ 1 ≤ n ∧ n ≤ 8)) ∧
    (∀ w d, s.holds92 .ringSwitch = false → bit d 0 = true → s.ring.ctrlTx.length < 16 → Answers (exec (.ringCtrlTxPush w d) s)
      (fun u => ∃ q : Queued, u.ring.ctrlTx = s.ring.ctrlTx ++ [q] ∧ q.frame.cls = 1 ∧
        q.frame.dest = (s.reg (aRing 0xA00)).setWidth 8)) ∧
    (∀ w d, s.holds92 .ringSwitch = false → bit d 0 = true →
      Answers (exec (.ringCtrlRxPop w d) s) (fun u => u.ring.ctrlRx = s.ring.ctrlRx.drop 1)) ∧
    (∀ x : Reliable, s.ring.reliable = [x] → s.ring.reliableQ = [] → x.frame.type ≠ 0x10 → s.ring.node.isSome = true →
      (x.resends < 8 → Answers (exec (.ctrlRetry x.frame.dest) s) (fun u => u.ring.reliable = [{ x with resends := x.resends + 1 }])) ∧
      (x.resends = 8 → Answers (exec (.ctrlRetry x.frame.dest) s) (fun u => u.ring.reliable = [] ∧
        u.pair (aRing (0x300 + 8 * 15)) = s.pair (aRing (0x300 + 8 * 15)) + 1)) ∧
      Answers (exec (.ctrlAckRx x.frame.dest x.frame.seq) s) (fun u => u.ring.reliable = [])) ∧
    (∀ (src : BitVec 8) (index : BitVec 16) (epoch gen : BitVec 8) (len : BitVec 32) (ld st : Bool),
      let head := s.field (aRing 0x11C) 15 0
      let n := 2 ^ s.field (aRing 0x118) 3 0
      let a := ((s.pair (aRing 0x110)).toNat + 32 * (head % n)) % 2 ^ 44
      s.flag (aRing 0x118) 8 = true → (head + 65536 - s.field (aRing 0x120) 15 0) % 65536 < n → 0x10000000 ≤ a → a + 32 ≤ 0x10200000 →
      s.touchesSealed a 32 = false → a % 32 = 0 →
      Answers (exec (.grantOfferRx src index epoch gen len ld st) s) (fun u =>
        u.readMem a 16 = toBytes 16 (Cap.far src index epoch gen (len.toNat + 1) ld st).bits.toNat ∧ u.tagAt a = true ∧
        u.readMem (a + 20) 4 = toBytes 4 len.toNat ∧ u.field (aRing 0x11C) 15 0 = (head + 1) % 65536 ∧
        (∀ k, k < a ∨ a + 32 ≤ k → u.readMem k 1 = s.readMem k 1)))

/-- R233, R369 to R373: the requester's access ends with its DATA or ACK, faults when it is revoked or times out, backs off when
busy, and a store asks for its outcome; the target queues, checks, performs and answers, and keeps the outcome of each store. -/
def Obligations.FarTransactions : Prop :=
  ∀ (i : StallId) (op : FarOp) (f : Frame) (s : State), (s.stall i.val).farOp = some op → (s.stall i.val).haltReq = none →
    (s.stall i.val).stopReq = false → (s.stall i.val).wptr < 16 → s.ringOn = true →
    let mine := leField f.payload 9 1 = i.val ∧ farMatches f op = true
    let faults := fun (o : Out) (vec : Nat) => Answers o (fun u => (u.stall i.val).state = .ready ∧ (u.stall i.val).farOp = none ∧
      (u.stall i.val).outcome.map Exc.vec = some vec ∧ (u.stall i.val).outcome.map Exc.faddr = some op.ea ∧
      (u.stall i.val).pcc = (s.stall i.val).pcc)
    (mine → op.phase = .sent → f.type = 3 → op.store = none → op.size ≤ 8 →
      Answers (exec (.farResponseRx f) s) (fun u => (u.stall i.val).state = .ready ∧ (u.stall i.val).farOp = none ∧
        (op.sext = false → u.rdInt i.val op.dest = BitVec.ofNat 64 (leField (f.payload.drop 24) 0 op.size)) ∧
        (u.stall i.val).pcc = Cap.setAddr (s.stall i.val).pcc (Cap.addr (s.stall i.val).pcc + 4))) ∧
    (mine → op.phase = .sent → f.type = 5 → faults (exec (.farResponseRx f) s) vFarRevoked) ∧
    (mine → op.phase = .sent → f.type = 6 → op.busy < 8 → Answers (exec (.farResponseRx f) s) (fun u =>
      (u.stall i.val).farOp = some { op with phase := .backoff, busy := op.busy + 1 })) ∧
    (mine → op.phase = .sent → f.type = 6 → 8 ≤ op.busy → faults (exec (.farResponseRx f) s) vFarBusy) ∧
    (mine → op.phase = .querying → f.type = 8 → leField f.payload 11 1 = 0 → faults (exec (.farResponseRx f) s) vFarTimeout) ∧
    (op.phase = .sent → op.store = none → faults (exec (.farTimerExpiry i) s) vFarTimeout) ∧
    (op.phase = .sent → op.store.isSome = true → Answers (exec (.farTimerExpiry i) s) (fun u =>
      (u.stall i.val).farOp = some { op with phase := .querying, queries := 1 } ∧ (u.stall i.val).state = (s.stall i.val).state)) ∧
    (op.phase = .backoff → Answers (exec (.farBackoffEnd i) s) (fun u => (u.stall i.val).farOp = some { op with phase := .sent })) ∧
    (s.ring.farIn.length < 64 → Answers (exec (.farRequestRx f) s) (fun u => u.ring.farIn = s.ring.farIn ++ [farReqOf f])) ∧
    (∀ q rest, s.ring.farIn = q :: rest → q.isStore = false → s.ring.node.isSome = true →
      Answers (exec .farRequestService s) (fun u => u.ring.farIn = rest ∧ ∀ k, k < aWindow → u.readMem k 1 = s.readMem k 1)) ∧
    (∀ q rest, s.ring.farIn = q :: rest → q.isStore = true → s.ring.ledger = [] → s.grantEn = false →
      Answers (exec .farRequestService s) (fun u => u.ring.farIn = rest ∧ u.ring.ledger.map LedgerEntry.state = [.cancelled] ∧
        ∀ k, u.readMem k 1 = s.readMem k 1)) ∧
    (∀ e : LedgerEntry, s.ring.ledger = [e] → e.is (farReqOf f) = true → e.tseq = (farReqOf f).tseq → e.state = .performed →
      Answers (exec (.queryRx f) s) (fun u => u.ring.ledger.map LedgerEntry.state = [.answered] ∧
        u.ring.ledger.map LedgerEntry.tseq = [e.tseq]))


/-! ## Tenant ports (chapter 14) -/

/-- R375 to R385: what a tenant port does with a frame from the wire, which frame it sends next and how it pads and counts it,
what it does with a transmit descriptor, EN 0 of a descriptor ring, a write of TP_PTP_OFFSET, a write of an absent unit (SEEN)
or of one that is not ready (EARLY), and the state of its link. -/
def Obligations.TenantPorts : Prop :=
  ∀ (n : TPort) (s : State),
    (∀ (f : List (BitVec 8)), s.tpOn n.val = true →
      let len := f.length + 4
      let t := (s.tpCount n.val 0).tpCount n.val 1 len
      let v := s.reg (aTp n.val (0x4000 + 4 * outerVid f))
      let high := bit v 2
      let rate := s.field (aTp n.val (if high then 0x10 else 0x14)) 15 0
      let ok := 64 ≤ len ∧ len ≤ s.field (aTp n.val 0) 31 16 ∧ etherType f ≠ 0x8808
      exec (.tpWireFrameRx n f false) s = .next (s.tpCount n.val 2) ∧
      (len < 64 ∨ s.field (aTp n.val 0) 31 16 < len → exec (.tpWireFrameRx n f true) s = .next (t.tpCount n.val 3)) ∧
      (64 ≤ len → len ≤ s.field (aTp n.val 0) 31 16 → etherType f = 0x8808 →
        exec (.tpWireFrameRx n f true) s = .next (t.tpCount n.val 4)) ∧
      (ok → bits v 1 0 = 0 ∨ bits v 1 0 = 3 → exec (.tpWireFrameRx n f true) s = .next (t.tpCount n.val 5)) ∧
      (ok → bits v 1 0 = 1 ∨ bits v 1 0 = 2 → rate ≠ 0 →
        bucketFill (s.reg (aTp n.val (if high then 0x10 else 0x14))) (if high then (s.tport n.val).bucketH else (s.tport n.val).bucketL)
          (s.islandNs - (s.tport n.val).bucketAt) < len * 8000 →
        Answers (exec (.tpWireFrameRx n f true) s) (fun u =>
          u.pair (aTp n.val (0x100 + 8 * (if high then 6 else 7))) = s.pair (aTp n.val (0x100 + 8 * (if high then 6 else 7))) + 1 ∧
          u.ring = s.ring ∧ ∀ p : TPort, (u.tport p.val).egressH = (s.tport p.val).egressH ∧
            (u.tport p.val).egressL = (s.tport p.val).egressL)) ∧
      (ok → bits v 1 0 = 2 → rate = 0 → s.ringEn n.val false = false ∨ s.ringHeld n.val false = 0 →
        Answers (exec (.tpWireFrameRx n f true) s) (fun u => u.pair (aTp n.val 0x140) = s.pair (aTp n.val 0x140) + 1 ∧ u.mem = s.mem)) ∧
      (ok → bits v 1 0 = 1 → rate = 0 → s.ring.node = some (v.extractLsb' 8 8) →
        ∀ p : TPort, bits v 17 16 = p.val → s.tpOn p.val = true → s.tpLink p.val = true → (s.tport p.val).egressH = [] →
          (s.tport p.val).egressL = [] → f.length ≤ 262144 →
          Answers (exec (.tpWireFrameRx n f true) s) (fun u => (u.tport p.val).egressH = (if high then [f] else []) ∧
            (u.tport p.val).egressL = (if high then [] else [f])))) ∧
    (s.tpOn n.val = true → s.tpLink n.val = true →
      let wire := fun (f : List (BitVec 8)) => f ++ List.replicate (60 - f.length) 0 ++
        toBytes 4 (crc32 (f ++ List.replicate (60 - f.length) 0)).toNat
      let x := s.tport n.val
      (∀ f rest, x.egressH = f :: rest → x.txd = none → Answers (exec (.tpWireFrameTx n) s) (fun u =>
        (u.tport n.val).lastTx = some (wire f) ∧ (u.tport n.val).egressH = rest ∧ (u.tport n.val).egressL = x.egressL ∧
        u.pair (aTp n.val 0x148) = s.pair (aTp n.val 0x148) + 1 ∧
        u.pair (aTp n.val 0x150) = s.pair (aTp n.val 0x150) + BitVec.ofNat 64 (max 60 f.length + 4))) ∧
      (∀ f rest, x.egressH = [] → x.egressL = f :: rest → x.txd = none → Answers (exec (.tpWireFrameTx n) s) (fun u =>
        (u.tport n.val).lastTx = some (wire f) ∧ (u.tport n.val).egressL = rest)) ∧
      (∀ d, x.egressH = [] → x.txd = some d → bit (txFlags d.tail) 3 = true → Answers (exec (.tpWireFrameTx n) s) (fun u =>
        (u.tport n.val).lastTx = some (wire (oneStep d.tail d.data s.tt.now)) ∧ (u.tport n.val).txd = none ∧
        (u.tport n.val).egressL = x.egressL)) ∧
      (x.egressH = [] → x.egressL = [] → x.txd = none → exec (.tpWireFrameTx n) s = .next s)) ∧
    (s.tpOn n.val = true → (s.ringEn n.val true = false ∨ s.ringHeld n.val true = 0 ∨ (s.tport n.val).txd.isSome = true →
        exec (.tpTxDescriptor n) s = .next s) ∧
      (s.ringEn n.val true = true → s.ringHeld n.val true ≠ 0 → (s.tport n.val).txd = none → ∀ t : State,
        (s.descGet (s.descAddr n.val true) = (none, t) → exec (.tpTxDescriptor n) s = .next (t.ringStop n.val true)) ∧
        (∀ (c : Capv) (tail : List (BitVec 8)), s.descGet (s.descAddr n.val true) = (some (c, tail), t) →
          bit (txFlags tail) 2 = false →
          let d : TxDesc := { addr := s.descAddr n.val true, tail := tail, data := [], live := true }
          let cur := (Cap.addr c).toNat
          (s.tpLink n.val = false → exec (.tpTxDescriptor n) s = .next ((t.tpCount n.val 11).txDone n.val d 5 false)) ∧
          (s.tpLink n.val = true → bufOk c [permLoad] = false ∨ Cap.inBounds c cur (leField tail 0 2) = false →
            exec (.tpTxDescriptor n) s = .next (t.txDone n.val d 1 false)) ∧
          (s.tpLink n.val = true → bufOk c [permLoad] = true → Cap.inBounds c cur (leField tail 0 2) = true →
            ∀ (bs : List (BitVec 8)) (w : State), t.dmaGet 3 cur (leField tail 0 2) = (.ok bs, w) →
              exec (.tpTxDescriptor n) s = .next (w.modTp n.val (fun q => { q with txd := some { d with data := bs } })))))) ∧
    (∀ tx, s.unitOpen (8 + n.val) → Answers (exec (.tpRingDisable n tx) s) (fun u =>
      u.ringEn n.val tx = false ∧ u.field (aTp n.val (ringOff tx + 12)) 15 0 = 0 ∧ u.field (aTp n.val (ringOff tx + 16)) 15 0 = 0 ∧
      u.ringEn n.val (!tx) = s.ringEn n.val (!tx) ∧ u.pair (aTp n.val (ringOff tx)) = s.pair (aTp n.val (ringOff tx)))) ∧
    (∀ tx, s.unitReady (8 + n.val) = false → s.naveUp = true → s.hasUnit (8 + n.val) = true →
      Answers (exec (.tpRingDisable n tx) s) (fun u =>
        u.flag aEarly (8 + n.val) = true ∧ u.ringEn n.val tx = s.ringEn n.val tx)) ∧
    (∀ tx, s.unitReady (8 + n.val) = false → s.naveUp = true → s.hasUnit (8 + n.val) = false →
      Answers (exec (.tpRingDisable n tx) s) (fun u =>
        u.flag aSeen (8 + n.val) = true ∧ u.ringEn n.val tx = s.ringEn n.val tx)) ∧
    (∀ v : BitVec 64, s.unitOpen (8 + n.val) → s.gateway = true → s.field aTtCtrl 1 0 = 2 → s.tmr.pending = false →
      (s.field aTtCtrl 4 3 = n.val → 1000 < v.toInt ∨ v.toInt < -1000 →
        Answers (exec (.tpPtpOffsetWrite n v) s) (fun u => u.tt.now = s.tt.now + v ∧ u.flag aTtStatus 2 = true)) ∧
      (s.field aTtCtrl 4 3 = n.val → -1000 ≤ v.toInt → v.toInt ≤ 1000 →
        Answers (exec (.tpPtpOffsetWrite n v) s) (fun u => u.tt.now = s.tt.now ∧ u.flag aTtStatus 2 = true)) ∧
      (s.field aTtCtrl 4 3 ≠ n.val → exec (.tpPtpOffsetWrite n v) s = .next s)) ∧
    (∀ block fec lf rf, s.unitReady (8 + n.val) = true → Answers (exec (.tpLinkChange n block fec lf rf) s) (fun u =>
      u.tpLink n.val = (block && (!(s.tport n.val).fecUsed || fec) && !lf) ∧ (u.tport n.val).rf = rf ∧ u.regs = s.regs))


/-! ## The cipher engine (chapter 14) -/

/-- R386 to R395, R126, R481: GO, ABORT and CLEAR of a slot; a chunk and the end of a job of each operation that works in
chunks; the public-key operations; preemption, yielding once at a 64 KiB boundary, and resumption; the random source, and
ENTROPY where its health tests fail. -/
def Obligations.CipherJobs : Prop :=
  ∀ (k : SlotId) (s : State),
    (s.unitOpen 13 →
      ((s.cslot k.val).state ≠ .idle → exec (.cphSlotGo k) s = .next s) ∧
      ((s.cslot k.val).state = .idle → ∀ x, s.cph.running = some x → Answers (exec (.cphSlotGo k) s) (fun u =>
        (u.cslot k.val).state = .queued ∧ (u.cslot k.val).order = s.cph.nextOrder ∧ u.cph.nextOrder = s.cph.nextOrder + 1 ∧
        (∀ j, (s.jobGet k.val).1 = some j → (u.cslot k.val).prio = j.flags.extractLsb' 0 3) ∧
        ∀ m : SlotId, m ≠ k → u.cslot m.val = s.cslot m.val)) ∧
      ((s.cslot k.val).state = .idle → s.cph.running = none → s.cphBest = none → (s.target (s.slotAddr k.val)).isMem = false →
        Answers (exec (.cphSlotGo k) s) (fun u => u.jobDone k 2 ∧ u.cph.running = none)) ∧
      ((s.cslot k.val).state = .queued ∨ (s.cslot k.val).state = .preempted ∨ (s.cslot k.val).state = .running →
        Answers (exec (.cphSlotAbort k) s) (fun u => u.jobDone k 10)) ∧
      ((s.cslot k.val).state = .idle ∨ (s.cslot k.val).state = .done → exec (.cphSlotAbort k) s = .next s) ∧
      ((s.cslot k.val).state = .done → Answers (exec (.cphSlotClear k) s) (fun u => (u.cslot k.val).state = .idle ∧
        ∀ m : SlotId, m ≠ k → u.cslot m.val = s.cslot m.val)) ∧
      ((s.cslot k.val).state ≠ .done → exec (.cphSlotClear k) s = .next s)) ∧
    (∀ (j : JobState) (upto : Nat), j.done % 64 = 0 → j.done + 64 < j.len → upto = j.done + 64 →
      let next := fun (j : JobState) (w : State) => w.modSlot k.val (fun x => { x with job := some j })
      (∀ x ∈ ([(0x01, .aesGcmEncrypt), (0x02, .aesGcmDecrypt), (0x03, .aesCtr), (0x04, .aesCbcEncrypt), (0x05, .aesCbcDecrypt),
          (0x40, .copy), (0x41, .capabilityAwareCopy)] : List (Nat × (Nat → Instr))), JobRuns s k j x.1 →
        ∀ (m : List (BitVec 8)) (t w : State), s.dmaGet 5 (j.at 0 + j.done) 64 = (.ok m, t) →
          t.dmaPut 5 (j.at 1 + j.done) (chunkOut j m).1 (if x.1 = 0x41 then t.copyTags j m else []) = (none, w) →
          exec (x.2 upto) s = .next (next { j with
            done := j.done + 64, input := j.input ++ chunkKeep j m (chunkOut j m).1, chain := (chunkOut j m).2 } w)) ∧
      (∀ x ∈ ([(0x10, .sha256), (0x11, .sha384), (0x12, .sha3256)] : List (Nat × (Nat → Instr))), JobRuns s k j x.1 →
        ∀ (m : List (BitVec 8)) (t : State), s.dmaGet 5 (j.at 0 + j.done) 64 = (.ok m, t) →
          exec (x.2 upto) s = .next (next { j with done := j.done + 64, input := j.input ++ m, chain := [] } t)) ∧
      (∀ x ∈ ([(0x01, .aesGcmEncrypt), (0x02, .aesGcmDecrypt), (0x03, .aesCtr), (0x04, .aesCbcEncrypt), (0x05, .aesCbcDecrypt),
          (0x10, .sha256), (0x11, .sha384), (0x12, .sha3256), (0x40, .copy), (0x41, .capabilityAwareCopy)] :
          List (Nat × (Nat → Instr))), JobRuns s k j x.1 →
        ∀ e t, s.dmaGet 5 (j.at 0 + j.done) 64 = (.error e, t) →
          Answers (exec (x.2 upto) s) (fun u => u.jobDone k (if e = .screen then 7 else 8))) ∧
      (JobRuns s k j 0x50 → (s.cph.entropyFail = true → Answers (exec (.random upto) s) (fun u => u.jobDone k 9)) ∧
        (s.cph.entropyFail = false → ∀ w : State,
          ({ (s.drawBytes 64).2 with cph := { s.cph with drbgReqs := s.cph.drbgReqs + 1 } }).dmaPut 5 (j.at 1 + j.done)
            (s.drawBytes 64).1 [] = (none, w) →
          exec (.random upto) s = .next (next { j with done := j.done + 64 } w)))) ∧
    (∀ (j : JobState) (upto : Nat), j.done = j.len →
      (∀ x ∈ ([(0x03, .aesCtr), (0x04, .aesCbcEncrypt), (0x05, .aesCbcDecrypt), (0x40, .copy), (0x41, .capabilityAwareCopy)] :
          List (Nat × (Nat → Instr))), JobRuns s k j x.1 → Answers (exec (x.2 upto) s) (fun u => u.jobDone k 0)) ∧
      (JobRuns s k j 0x50 → Answers (exec (.random upto) s) (fun u =>
        u.jobDone k (if j.len = 0 ∧ s.cph.entropyFail = true then 9 else 0))) ∧
      (∀ x ∈ ([(0x10, .sha256, Machine.sha256), (0x11, .sha384, Machine.sha384), (0x12, .sha3256, sha3x256)] :
          List (Nat × (Nat → Instr) × (List (BitVec 8) → List (BitVec 8)))), JobRuns s k j x.1 →
        ∀ w, s.dmaPut 5 (j.at 1) (x.2.2 j.input) [] = (none, w) →
          exec (x.2.1 upto) s = .next ((w.cphEnd k.val 0).cphTake)) ∧
      (let tag := gcmTag (aesKeys j.key) (j.aux.take 12) (j.aux.drop 32) j.input
       (JobRuns s k j 0x01 → ∀ w, s.dmaPut 5 (j.at 3 + 16) tag [] = (none, w) →
          exec (.aesGcmEncrypt upto) s = .next ((w.cphEnd k.val 0).cphTake)) ∧
       (JobRuns s k j 0x02 → tag = (j.aux.drop 16).take 16 → Answers (exec (.aesGcmDecrypt upto) s) (fun u => u.jobDone k 0)) ∧
       (JobRuns s k j 0x02 → tag ≠ (j.aux.drop 16).take 16 → ∀ w, s.dmaPut 5 (j.at 1) (List.replicate j.len 0) [] = (none, w) →
          exec (.aesGcmDecrypt upto) s = .next ((w.cphEnd k.val 1).cphTake)))) ∧
    (∀ (j : JobState) (m : List (BitVec 8)) (t w : State), s.dmaGet 5 (j.at 0) j.len = (.ok m, t) →
      (∀ op, op = 0x20 ∨ op = 0x21 → JobRuns s k j op → Answers (exec .ecdsaVerify s) (fun u => u.jobDone k
        (if (opCurve op).verify (leField j.key 0 j.len, leField j.key j.len j.len) m (leField j.aux 0 j.len)
          (leField j.aux j.len j.len) then 0 else 1))) ∧
      (∀ op, op = 0x22 ∨ op = 0x23 → JobRuns s k j op →
        (s.cph.entropyFail = true → Answers (exec .ecdsaSign s) (fun u => u.jobDone k 9)) ∧
        (s.cph.entropyFail = false →
          let sg := (opCurve op).sign (leField j.key 0 j.len) m (1 + ofBytes (t.drawBytes j.len).1 % ((opCurve op).n - 1))
          (t.drawBytes j.len).2.drbgUsed.dmaPut 5 (j.at 1) (toBytes j.len sg.1 ++ toBytes j.len sg.2) [] = (none, w) →
          Answers (exec .ecdsaSign s) (fun u => u.jobDone k 0))) ∧
      (JobRuns s k j 0x30 → t.dmaPut 5 (j.at 1) (Machine.x25519 j.key m) [] = (none, w) →
        Answers (exec .x25519 s) (fun u => u.jobDone k 0))) ∧
    (∀ j, s.cph.running = some k → (s.cslot k.val).job = some j → s.unitOpen 13 →
      let p := (s.cslot k.val).prio.toNat
      let yields := j.atQuantum = true
      let y := s.modSlot k.val (fun x => { x with job := some { j with yieldedAt := j.done } })
      (s.cphWaiting (fun q => decide (p < q)) = false → exec .cphPreempt s = .next s) ∧
      (s.cphWaiting (fun q => decide (p < q)) = true → ∀ t, s.ctxGet k.val = (none, t) →
        Answers (exec .cphPreempt s) (fun u => u.jobDone k 6)) ∧
      (∀ a t w, s.ctxGet k.val = (some a, t) → (t.drawBytes 512).2.dmaPut 5 a (t.drawBytes 512).1 [] = (none, w) →
        s.cphWaiting (fun q => decide (p < q)) = true →
        Answers (exec .cphPreempt s) (fun u => (u.cslot k.val).state = .preempted ∧ (u.cslot k.val).order = 0 ∧
          (u.cslot k.val).ctx = (t.drawBytes 512).1 ∧ (u.cslot k.val).job = some j ∧ u.cph.running ≠ some k)) ∧
      (¬ yields ∨ s.cphWaiting (fun q => q == p) = false → exec .cphQuantumYield s = .next s) ∧
      (yields → s.cphWaiting (fun q => q == p) = true →
        ∀ a t w, ({ y with cph := { y.cph with nextOrder := s.cph.nextOrder + 1 } }).ctxGet k.val = (some a, t) →
          (t.drawBytes 512).2.dmaPut 5 a (t.drawBytes 512).1 [] = (none, w) →
          Answers (exec .cphQuantumYield s) (fun u => (u.cslot k.val).state = .preempted ∧ (u.cslot k.val).order = s.cph.nextOrder ∧
            u.cph.nextOrder = s.cph.nextOrder + 1 ∧ (u.cslot k.val).job = some { j with yieldedAt := j.done } ∧
            u.cph.running ≠ some k))) ∧
    (s.cph.running = none → s.unitOpen 13 → s.cphBest = some k.val → (s.cslot k.val).state = .preempted →
      ∀ a t bs w, s.ctxGet k.val = (some a, t) → t.dmaGet 5 a 512 = (.ok bs, w) →
        (bs = (s.cslot k.val).ctx → Answers (exec .cphJobResume s) (fun u => u.cph.running = some k ∧
          (u.cslot k.val).state = .running ∧ (u.cslot k.val).job = (s.cslot k.val).job)) ∧
        (bs ≠ (s.cslot k.val).ctx → Answers (exec .cphJobResume s) (fun u => u.jobDone k 6))) ∧
    (65536 ≤ s.cph.drbgReqs → s.cph.entropyFail = false →
      exec .drbgReseed s = .next { s with cph := { s.cph with drbgReqs := 0 } }) ∧
    (s.sac.trngFail = false → Answers (exec .trngHealthFail s) (fun u => u.cph.entropyFail = true ∧ u.sac.trngFail = true)) ∧
    Answers (exec .trngHealthPass s) (fun u => u.cph.entropyFail = false ∧ u.sac.trngFail = false)


/-! ## The Clerestory (chapter 15) -/

/-- R396 to R418: camera and thermal frames, counted whatever RUN and the source are and processed with RUN 1 from the source;
the loss of the camera; RUN; program banks, loaded from the image whose header and signature decide the REASON and INT8;
committed sets; periods, with a record for each enabled zone whether RUN was 1 or not. A write of a Clerestory register waits
for the island's clock (R92). -/
def Obligations.ClerestoryCommands : Prop :=
  ∀ (s : State), s.unitReady 12 = true →
    let ct := fun (u : State) (i : Nat) => u.pair (aClr (0x400 + 8 * i))
    let c := s.clr
    let clock := s.holds92 .clerestory = false
    let settled := c.levelDue = none ∧ c.swapDue = false ∧ c.zonesDue = [] ∧ c.homogDue = none
    (∀ (f : CsiFrame) (res : List BlobResult) (err : Bool),
      let chan := f.vc.toNat = s.clrF 0x10 17 16
      let good := f.dt.toNat = s.clrF 0x10 5 0 ∧ s.frameOk f = true
      let seen := good ∧ settled ∧ c.camLost = false
      Answers (exec (.cameraFrameRx f res err) s) (fun u => ct u 4 = ct s 4 + BitVec.ofNat 64 f.eccCorr ∧
        ct u 5 = ct s 5 + BitVec.ofNat 64 (f.dropped + if chan ∧ clrTypes.contains f.dt.toNat = true then 0 else f.grey.length)) ∧
      (¬ chan → Answers (exec (.cameraFrameRx f res err) s) (fun u => u.clr = c ∧ ∀ i : Fin 4, ct u i.val = ct s i.val)) ∧
      (chan → ¬ good → settled → Answers (exec (.cameraFrameRx f res err) s) (fun u => u.clr = c ∧ ct u 3 = ct s 3 + 1 ∧ ct u 1 = ct s 1)) ∧
      (chan → good → Answers (exec (.cameraFrameRx f res err) s) (fun u => u.clr.camlock = true ∧ u.clr.camLost = false ∧
        ct u 0 = ct s 0 + 1)) ∧
      (chan → ¬ good → s.srcCamera = true → c.levelDue = none → c.swapDue = true → s.bankState (1 - c.active.val) = .accepted →
        Answers (exec (.cameraFrameRx f res err) s) (fun u => u.clr.active.val = 1 - c.active.val ∧ u.clr.swapDue = false ∧
          u.bankState (1 - c.active.val) = .active ∧ u.clr.homog = c.homogDue.getD c.homog ∧ u.clr.homogDue = none ∧
          u.clr.zonesDue = [])) ∧
      (chan → ¬ good → s.srcCamera = true → c.levelDue = none → c.swapDue = false → ∀ (z : Fin 16) (zn : Zone),
        c.zonesDue = [(z.val, zn)] → Answers (exec (.cameraFrameRx f res err) s) (fun u => u.zone z.val = zn ∧
          ∀ y : Fin 16, y ≠ z → u.zone y.val = s.zone y.val)) ∧
      (chan → seen → c.run = false ∨ s.srcCamera = false → Answers (exec (.cameraFrameRx f res err) s) (fun u =>
        u.clr = { c with camlock := true } ∧ ct u 0 = ct s 0 + 1 ∧ ct u 1 = ct s 1 ∧ ct u 2 = ct s 2)) ∧
      (chan → seen → c.run = true → s.srcCamera = true → s.frameDue s.tt.now = false →
        Answers (exec (.cameraFrameRx f res err) s) (fun u =>
          u.clr = { c with camlock := true } ∧ ct u 0 = ct s 0 + 1 ∧ ct u 2 = ct s 2 + 1)) ∧
      (chan → seen → c.run = true → s.srcCamera = true → s.frameDue s.tt.now = true → err = false →
        Answers (exec (.cameraFrameRx f res err) s) (fun u => ct u 0 = ct s 0 + 1 ∧ ct u 1 = ct s 1 + 1 ∧ u.clr.run = true ∧
          u.clr.lastFrame = some s.tt.now ∧ u.clr.periodFrames = c.periodFrames + 1 ∧
          u.clr.noint8 = (c.level == 2 && !s.bankNow.int8))) ∧
      (chan → seen → c.run = true → s.srcCamera = true → s.frameDue s.tt.now = true → err = true → c.level ≠ 2 ∨ s.bankNow.int8 = true →
        Answers (exec (.cameraFrameRx f res err) s) (fun u => u.clr.run = false ∧ u.clr.tracks = [] ∧ u.flag (aClr 4) 15 = true ∧
          bit u.clr.periodFlags 0 = true ∧ ct u 3 = ct s 3 + 1))) ∧
    (c.run = true → s.srcCamera = true → c.camLost = false → Answers (exec .cameraLost s) (fun u => u.clr.camlock = false ∧
      u.clr.camLost = true ∧ u.clr.tracks = [] ∧ bit u.clr.periodFlags 0 = true ∧ u.clr.run = true)) ∧
    (∀ complete pix res err, s.flag (aClr 0x18) 0 = true →
      let fits := pix.length = s.clrF 0x1C 7 0 ∧ ∀ r ∈ pix, r.length = s.clrF 0x1C 23 16
      (s.srcCamera = true ∨ settled → complete = false ∨ ¬ fits → Answers (exec (.thermalFrameRead complete pix res err) s) (fun u =>
        u.clr = { c with thmok := false } ∧ ct u 3 = ct s 3 + 1)) ∧
      (s.srcCamera = true ∨ (c.run = false ∧ settled) → complete = true → fits →
        Answers (exec (.thermalFrameRead complete pix res err) s) (fun u => u.clr = { c with thmok := true } ∧ ct u 9 = ct s 9 + 1)) ∧
      (c.run = true → s.srcCamera = false → complete = true → fits → settled → s.frameDue s.tt.now = true → err = false →
        Answers (exec (.thermalFrameRead complete pix res err) s) (fun u => u.clr.thmok = true ∧ ct u 1 = ct s 1 + 1 ∧
          u.clr.lastFrame = some s.tt.now))) ∧
    (clock → c.run = false →
      (s.clrConfigOk = false → Answers (exec .clrRunStart s) (fun u => u.flag (aClr 4) 13 = true ∧ u.clr = c)) ∧
      (s.clrConfigOk = true → s.partSize = true → exec .clrRunStart s = .next s) ∧
      (s.clrConfigOk = true → s.partSize = false → s.bankState c.active.val = .active →
        Answers (exec .clrRunStart s) (fun u => u.clr.run = true ∧ u.clr.active = c.active ∧ u.clr.camLost = c.camLost ∧
          (∀ st, c.periodStart = some st → u.clr.periodStart = some st ∧
            u.clr.periodFlags = (if s.tt.now = st then c.periodFlags else c.periodFlags ||| 1)) ∧
          (c.periodStart = none → u.clr.periodStart = some s.periodFloor ∧ u.clr.periodFrames = 0 ∧
            u.clr.periodFlags = (if s.periodFloor = s.tt.now then 0 else 1)))) ∧
      (s.clrConfigOk = true → s.partSize = false → ∀ b : Fin 2, s.bankState c.active.val ≠ .active → s.bankState b.val = .accepted →
        s.bankState (1 - b.val) ≠ .accepted → Answers (exec .clrRunStart s) (fun u => u.clr.run = true ∧ u.clr.active = b ∧
          u.bankState b.val = .active)) ∧
      (s.clrConfigOk = true → s.partSize = false → s.bankState c.active.val ≠ .active → s.bankState 0 ≠ .accepted →
        s.bankState 1 ≠ .accepted → exec .clrRunStart s = .next s) ∧
      exec .clrRunStop s = .next s) ∧
    (clock → c.run = true → exec .clrRunStart s = .next s ∧ Answers (exec .clrRunStop s) (fun u => u.clr.run = false ∧
      u.clr.tracks = [] ∧ bit u.clr.periodFlags 0 = true)) ∧
    (∀ b : Fin 2,
      (clock → s.partSize = false → s.bankState b.val ≠ .active → s.bankState b.val ≠ .loading →
        Answers (exec (.clrLoad b) s) (fun u => u.bank b.val = { Bank.empty with
            state := .loading, addr := s.pair (aClr (0x80 + 16 * b.val)), len := s.clrF (0x88 + 16 * b.val) 24 0 } ∧
          u.bank (1 - b.val) = s.bank (1 - b.val))) ∧
      (clock → s.partSize = true ∨ s.bankState b.val = .active ∨ s.bankState b.val = .loading → exec (.clrLoad b) s = .next s) ∧
      (∀ sig : Bool, s.bankState b.val = .loading →
        let x := s.bank b.val
        let r := s.dmaGet 2 x.addr.toNat x.len
        let rejected := fun (u : State) (n : Nat) => (u.bank b.val).state = .rejected ∧ (u.bank b.val).reason = BitVec.ofNat 4 n ∧
          (u.bank b.val).int8 = false
        (0x1000000 < x.len → Answers (exec (.clrLoadDone b sig) s) (fun u => rejected u 5)) ∧
        (x.len ≤ 0x1000000 → ∀ e, r.1 = .error e → Answers (exec (.clrLoadDone b sig) s) (fun u => rejected u 1)) ∧
        (x.len ≤ 0x1000000 → ∀ bs, r.1 = .ok bs →
          let n := leField (bs.take 512) 0x14 4
          let why := s.headerReason 3 (bs.take 512) (sig && decide (512 + n ≤ x.len) && digestOk (bs.take 512) ((bs.drop 512).take n))
          (why = 0 → Answers (exec (.clrLoadDone b sig) s) (fun u => (u.bank b.val).state = .accepted ∧ (u.bank b.val).reason = 0 ∧
            (u.bank b.val).int8 = (leField (bs.take 512) 0x24 4 != 0))) ∧
          (why ≠ 0 → Answers (exec (.clrLoadDone b sig) s) (fun u => rejected u why))))) ∧
    (clock → s.bankState (1 - c.active.val) = .accepted → exec .clrSwap s = .next { s with clr := { c with swapDue := true } }) ∧
    (clock → s.bankState (1 - c.active.val) ≠ .accepted → exec .clrSwap s = .next s) ∧
    (∀ (z : Fin 16) (d : BitVec 32), clock → Answers (exec (.clrZoneCommit z d) s) (fun u => ∃ zn : Zone,
      u.clr.zonesDue = c.zonesDue ++ [(z.val, zn)] ∧ zn.en = bit d 0 ∧ u.clr.zones = c.zones ∧
      ∀ k : Fin 4, zn.pts[k] = (s.clrF (0x200 + 0x20 * z.val + 4 * k.val) 26 16, s.clrF (0x200 + 0x20 * z.val + 4 * k.val) 10 0))) ∧
    (∀ d : BitVec 32, clock → Answers (exec (.clrHomogCommit d) s) (fun u => u.clr.homog = c.homog ∧ ∃ v, u.clr.homogDue = some v ∧
      v[8] = d ∧ ∀ k : Fin 8, v[k.val] = s.reg (aClr (0x100 + 4 * k.val)))) ∧
    (∀ d : BitVec 32, clock →
      let e := fun (k : Nat) => if k = 6 then bits d 15 0 else s.clrF (0x140 + 4 * k) 15 0
      ((∀ k, k < 6 → e k < e (k + 1)) → Answers (exec (.clrSpeedEdgeCommit d) s) (fun u =>
        ∀ k : Fin 7, (u.clr.edges[k]).toNat = e k.val)) ∧
      (¬ (∀ k, k < 6 → e k < e (k + 1)) → Answers (exec (.clrSpeedEdgeCommit d) s) (fun u => u.flag (aClr 4) 13 = true ∧
        u.clr.edges = c.edges))) ∧
    (∀ st : BitVec 64, c.periodStart = some st →
      (s.periodFloor.toNat ≤ st.toNat → exec .periodEnd s = .next s) ∧
      (st.toNat < s.periodFloor.toNat →
        Answers (exec .periodEnd s) (fun u => u.clr.periodStart = some s.periodFloor ∧ u.clr.periodFrames = 0 ∧
          u.clr.periodFlags = (if c.run = true ∧ c.camLost = true ∧ s.srcCamera = true then 1 else 0) ∧
          u.clr.counts = Vector.replicate 16 ZoneCount.zero ∧ u.clr.tracks = c.tracks) ∧
        (s.flag (aClr 0x38) 8 = false → Answers (exec .periodEnd s) (fun u => u.mem = s.mem ∧
          ct u 8 = ct s 8 + BitVec.ofNat 64 s.zonesOn.length)) ∧
        (∀ z : Nat,
          let n := 2 ^ s.clrF 0x38 3 0
          let head := s.clrF 0x3C 15 0
          let base := (s.pair (aClr 0x30)).toNat
          s.zonesOn = [z] → s.flag (aClr 0x38) 8 = true → s.touchesSealed base (64 * n) = false →
          0x10000000 ≤ base → base + 64 * n ≤ 0x10200000 → base % 64 = 0 → (head + 65536 - s.clrF 0x40 15 0) % 65536 ≠ n →
          s.screen.old = [] → (s.screenDecide (Who.dev 2) (base + 64 * (head % n)) .store).ok = true →
          Answers (exec .periodEnd s) (fun u => u.clrF 0x3C 15 0 = (head + 1) % 65536 ∧
            u.readMem (base + 64 * (head % n)) 2 = [1, BitVec.ofNat 8 z])))) ∧
    (c.periodStart = none → exec .periodEnd s = .next s)


/-! ## Timers and DALI (chapter 16) -/

/-- R422 to R449: EN, ARM (an ARM bit written in the same cycle stays, R9), the period boundary and the compare of a general
timer, the same of a lamp channel, the group registers, releases, edge captures, and DALI frames. A timer block that is not
ready takes none of the writes (R36). -/
def Obligations.TimersAndDali : Prop :=
  ∀ (s : State),
    (∀ n : Fin 16, s.unitOpen 17 →
      let g := s.gt n.val
      (g.state = .stopped → Answers (exec (.gtEnable n) s) (fun u => u.flag (aGt n.val 0) 0 = true ∧
        (u.gt n.val).state = (if s.flag (aGt n.val 0) 1 = true ∨ s.slaveMode n.val = 4 then .waiting else .running) ∧
        u.reg (aGt n.val 8) = s.reg (aGt n.val 8))) ∧
      (g.state ≠ .stopped → exec (.gtEnable n) s = .next s) ∧
      Answers (exec (.gtDisable n) s) (fun u => u.flag (aGt n.val 0) 0 = false ∧ (u.gt n.val).state = .stopped ∧
        u.reg (aGt n.val 8) = s.reg (aGt n.val 8)) ∧
      (g.state = .stopped → Answers (exec (.gtArm n) s) (fun u => u.reg (aGt n.val 0xC) = s.reg (aGt n.val 0x18) ∧
        u.reg (aGt n.val 0x10) = s.reg (aGt n.val 0x1C) ∧ u.reg (aGt n.val 0x14) = s.reg (aGt n.val 0x20) ∧
        (AMap.get? s.wset (aGt n.val 0) = none → u.flag (aGt n.val 0) 2 = false) ∧ u.flag (aGt n.val 4) 8 = true)) ∧
      (g.state ≠ .stopped → Answers (exec (.gtArm n) s) (fun u => u.flag (aGt n.val 0) 2 = true ∧
        u.reg (aGt n.val 0xC) = s.reg (aGt n.val 0xC) ∧ u.reg (aGt n.val 0x10) = s.reg (aGt n.val 0x10) ∧
        u.reg (aGt n.val 0x14) = s.reg (aGt n.val 0x14)))) ∧
    (∀ n : Fin 16, s.unitReady 17 = false → s.naveUp = true → s.hasUnit 17 = true → Answers (exec (.gtEnable n) s) (fun u =>
      u.flag aEarly 17 = true ∧ u.gt n.val = s.gt n.val)) ∧
    (∀ n : Fin 16, (s.gt n.val).state = .running → s.gtFrozen n.val = false →
      let armed := s.flag (aGt n.val 0) 2 = true ∧ s.flag (aGt n.val 0) 3 = false
      Answers (exec (.gtPeriodBoundary n) s) (fun u => u.reg (aGt n.val 8) = 0 ∧ u.flag (aGt n.val 4) 0 = true ∧
        (armed → u.reg (aGt n.val 0xC) = s.reg (aGt n.val 0x18) ∧ u.reg (aGt n.val 0x10) = s.reg (aGt n.val 0x1C) ∧
          (AMap.get? s.wset (aGt n.val 0) = none → u.flag (aGt n.val 0) 2 = false) ∧ u.flag (aGt n.val 4) 8 = true) ∧
        (¬ armed → u.reg (aGt n.val 0xC) = s.reg (aGt n.val 0xC) ∧ u.flag (aGt n.val 0) 2 = s.flag (aGt n.val 0) 2) ∧
        (u.gt n.val).state = (if s.flag (aGt n.val 0) 5 then .stopped else .running) ∧
        (s.flag (aGt n.val 0) 8 = true → bit s.events.running n.val = false → s.reg (aTarget n.val) ≠ 0 → s.naveRuns = true →
          ∃ e ∈ u.events.flight, e.n = n.val ∧ e.targets = s.reg (aTarget n.val))) ∧
      (∀ k : Fin 2, let c := s.reg (aGt n.val (0x10 + 4 * k.val))
        (c ≠ 0 → c.toNat ≤ (s.reg (aGt n.val 0xC)).toNat → Answers (exec (.gtCompareEvent n k) s) (fun u =>
          u.reg (aGt n.val 8) = c ∧ u.flag (aGt n.val 4) (1 + k.val) = true ∧ u.reg (aGt n.val 0xC) = s.reg (aGt n.val 0xC))) ∧
        ((s.reg (aGt n.val 0xC)).toNat < c.toNat → exec (.gtCompareEvent n k) s = .next s))) ∧
    (∀ (n : Fin 16) (k : Fin 2), (s.gt n.val).state ≠ .running ∨ s.gtFrozen n.val = true →
      exec (.gtPeriodBoundary n) s = .next s ∧ exec (.gtCompareEvent n k) s = .next s) ∧
    (∀ w : BitVec 32, s.unitOpen 17 →
      let gtSame := fun (n : Fin 16) (u : State) => u.gt n.val = s.gt n.val ∧ ∀ k, k < 0x100 → u.reg (aGt n.val k) = s.reg (aGt n.val k)
      let lpSame := fun (n : Fin 8) (u : State) => u.lp n.val = s.lp n.val ∧ ∀ k, k < 0x100 → u.reg (aLp n.val k) = s.reg (aLp n.val k)
      Answers (exec (.tmrArmSet w) s) (fun u =>
        (∀ n : Fin 16, (bit w n.val = true → (s.gt n.val).state = .stopped → u.reg (aGt n.val 0xC) = s.reg (aGt n.val 0x18)) ∧
          (bit w n.val = true → (s.gt n.val).state ≠ .stopped → u.flag (aGt n.val 0) 2 = true) ∧
          (bit w n.val = false → gtSame n u)) ∧
        (∀ n : Fin 8, (bit w (16 + n.val) = true → (s.lp n.val).state = .stopped → u.reg (aLp n.val 4) = s.reg (aLp n.val 0xC)) ∧
          (bit w (16 + n.val) = true → (s.lp n.val).state ≠ .stopped → u.flag (aLp n.val 0) 2 = true) ∧
          (bit w (16 + n.val) = false → lpSame n u))) ∧
      Answers (exec (.tmrHoldSet w) s) (fun u =>
        (∀ n : Fin 16, (bit w n.val = true → u.flag (aGt n.val 0) 3 = true) ∧ (bit w n.val = false → gtSame n u)) ∧
        ∀ n : Fin 8, (bit w (16 + n.val) = true → u.flag (aLp n.val 0) 3 = true) ∧ (bit w (16 + n.val) = false → lpSame n u)) ∧
      Answers (exec (.tmrHoldClr w) s) (fun u =>
        (∀ n : Fin 16, (bit w n.val = true → u.flag (aGt n.val 0) 3 = false) ∧ (bit w n.val = false → gtSame n u)) ∧
        ∀ n : Fin 8, (bit w (16 + n.val) = true → u.flag (aLp n.val 0) 3 = false) ∧ (bit w (16 + n.val) = false → lpSame n u))) ∧
    (s.unitOpen 17 →
      Answers (exec .gstartGo s) (fun u => (s.ttValid = true → u.regs = s.regs) ∧
        (s.ttValid = false → u.flag (aTmr 0x3004) 2 = true) ∧
        (∀ n : Fin 16, u.gt n.val = if (s.gt n.val).state = .waiting ∧ s.flag (aGt n.val 0) 1 = true
          then { s.gt n.val with state := .running } else s.gt n.val) ∧
        ∀ n : Fin 8, u.lp n.val = if (s.lp n.val).state = .waiting ∧ s.flag (aLp n.val 0) 1 = true
          then { s.lp n.val with state := .running } else s.lp n.val) ∧
      Answers (exec .armAt s) (fun u => u.tmr.pending = true ∧ u.flag (aTmr 0x3004) 1 =
        (s.flag (aTmr 0x3004) 1 || decide ((s.pair (aTmr 0x3008)).toNat ≤ s.tt.now.toNat))) ∧
      exec .gstartCancel s = .next { s with tmr := { s.tmr with pending := false } }) ∧
    (s.tmr.pending = true → s.flag (aTmr 0x3000) 3 = false ∨ s.ttValid = true → Answers (exec .scheduledRelease s) (fun u =>
      u.tmr.pending = false ∧ (s.pair (aTmr 0x3008)).toNat ≤ u.tt.now.toNat ∧ (s.ttValid = false → u.flag (aTmr 0x3004) 2 = true) ∧
      ∀ n : Fin 16, (s.gt n.val).state = .waiting → s.flag (aGt n.val 0) 1 = true → (u.gt n.val).state = .running)) ∧
    (s.tmr.pending = false ∨ (s.flag (aTmr 0x3000) 3 = true ∧ s.ttValid = false) → exec .scheduledRelease s = .next s) ∧
    (∀ n : Fin 8,
      let p := s.lp n.val
      (p.state = .running →
        let armed := s.flag (aLp n.val 0) 2 = true ∧ s.flag (aLp n.val 0) 3 = false
        Answers (exec (.lpPeriodBoundary n) s) (fun u => (u.lp n.val).count = 0 ∧ (u.lp n.val).phase = p.phase + 1 ∧
          u.flag (aLp n.val 0x14) 0 = true ∧
          (armed → u.reg (aLp n.val 4) = s.reg (aLp n.val 0xC) ∧ u.reg (aLp n.val 8) = s.reg (aLp n.val 0x10) ∧
            (AMap.get? s.wset (aLp n.val 0) = none → u.flag (aLp n.val 0) 2 = false)) ∧
          (¬ armed → u.reg (aLp n.val 4) = s.reg (aLp n.val 4) ∧ u.reg (aLp n.val 8) = s.reg (aLp n.val 8)) ∧
          bit u.sac.mux.sacLp n.val = (s.sac.mux.taken && bit s.sac.mux.sacLp n.val))) ∧
      (p.state ≠ .running → exec (.lpPeriodBoundary n) s = .next s) ∧
      (s.unitOpen 17 →
        (p.state = .stopped → Answers (exec (.lpEnable n) s) (fun u => u.flag (aLp n.val 0) 0 = true ∧
          (u.lp n.val).state = (if s.flag (aLp n.val 0) 1 then .waiting else .running))) ∧
        (p.state ≠ .stopped → exec (.lpEnable n) s = .next s) ∧
        Answers (exec (.lpDisable n) s) (fun u => u.flag (aLp n.val 0) 0 = false ∧ (u.lp n.val).state = .stopped) ∧
        (p.state = .stopped → Answers (exec (.lpArm n) s) (fun u => u.reg (aLp n.val 4) = s.reg (aLp n.val 0xC) ∧
          u.reg (aLp n.val 8) = s.reg (aLp n.val 0x10) ∧ u.flag (aLp n.val 0x14) 1 = true)) ∧
        (p.state ≠ .stopped → Answers (exec (.lpArm n) s) (fun u => u.flag (aLp n.val 0) 2 = true ∧
          u.reg (aLp n.val 4) = s.reg (aLp n.val 4))))) ∧
    (∀ (n : Fin 16) (level : Bool), s.unitReady 17 = true →
      let e := s.ed n.val
      let chosen := e.level ≠ level ∧ s.gpioPowered (s.field (aEd n.val 0) 4 0) = true ∧ s.flag (aEd n.val 0) (if level then 8 else 9) = true
      let lag := (s.field (aEd n.val 0) 23 16 + 2) * 10
      let free := s.field (aEd n.val 4) 23 0 = 0 ∨ e.last = none
      (e.level = level → Answers (exec (.edEdge n level) s) (fun u => u.regs = s.regs ∧ (u.ed n.val).fifo = e.fifo ∧
        (u.ed n.val).level = level ∧ (u.ed n.val).last = e.last)) ∧
      (chosen → free → e.fifo.length < 4 → lag ≤ s.tt.now.toNat → Answers (exec (.edEdge n level) s) (fun u =>
        (u.ed n.val).level = level ∧ (u.ed n.val).last = some s.tmr.cycles ∧
        (u.ed n.val).fifo = e.fifo ++ [⟨level, s.tt.now - BitVec.ofNat 64 lag⟩])) ∧
      (chosen → free → 4 ≤ e.fifo.length → Answers (exec (.edEdge n level) s) (fun u => (u.ed n.val).fifo = e.fifo ∧
        u.flag (aEd n.val 8) 8 = true ∧ u.pair (aEd n.val 0x18) = s.pair (aEd n.val 0x18) + 1)) ∧
      (∀ t, chosen → e.last = some t → s.field (aEd n.val 4) 23 0 ≠ 0 → s.tmr.cycles < t + s.field (aEd n.val 4) 23 0 →
        Answers (exec (.edEdge n level) s) (fun u => (u.ed n.val).fifo = e.fifo ∧ (u.ed n.val).last = some t ∧
          u.flag (aEd n.val 8) 9 = true ∧ u.pair (aEd n.val 0x20) = s.pair (aEd n.val 0x20) + 1)) ∧
      (s.unitOpen 17 → Answers (exec (.tmrEdPop n) s) (fun u => u.ed n.val = { e with fifo := e.fifo.drop 1 } ∧ u.regs = s.regs))) ∧
    (∀ d : BitVec 32, s.naveRuns = true → bit d 31 = true →
      (s.dali.busy = false → s.sac.mux.sacDali = false → s.dali.fault = false → Answers (exec (.daliTxGo d) s) (fun u =>
        u.dali.busy = true ∧ u.dali.ask = bit d 27 ∧ u.dali.last = some (bit d 24, d.extractLsb' 0 24))) ∧
      (s.dali.busy = false → s.sac.mux.sacDali = true → Answers (exec (.daliTxGo d) s) (fun u => u.dali.busy = false ∧
        u.field (aLamp 0x14) 3 1 = 5 ∧ u.flag (aLamp 0x14) 4 = true)) ∧
      (s.dali.busy = false → s.sac.mux.sacDali = false → s.dali.fault = true → Answers (exec (.daliTxGo d) s) (fun u =>
        u.dali.busy = false ∧ u.field (aLamp 0x14) 3 1 = 6 ∧ u.flag (aLamp 0x14) 4 = true ∧ u.events = s.events)) ∧
      (s.dali.busy = true → Answers (exec (.daliTxGo d) s) (fun u => u.dali = s.dali))) ∧
    (s.dali.busy = true → s.dali.ask = true → exec (.daliFrameEnd .sent) s = .next s) ∧
    (∀ e : DaliEnd, s.dali.busy = true → s.dali.ask = false ∨ e ≠ .sent → Answers (exec (.daliFrameEnd e) s) (fun u => u.dali.busy = false ∧
      u.flag (aLamp 0x14) 4 = true ∧ u.field (aLamp 0x14) 3 1 = daliCode e s.dali.ask ∧
      ∀ b, e = .answer b → s.dali.ask = true → u.field (aLamp 0x14) 23 16 = b.toNat)) ∧
    (∀ (e : DaliEnd) (f : BitVec 16), s.dali.busy = false → s.dali.sacFrame = some f → Answers (exec (.daliFrameEnd e) s) (fun u =>
      u.dali.sacFrame = none ∧ u.dali.last = some (false, f.setWidth 24) ∧ u.sac.mux.sacDali = s.sac.mux.taken)) ∧
    Answers (exec .daliBusFault s) (fun u => u.dali.fault = true ∧ u.flag (aLamp 0x14) 9 = true ∧ u.dali.busy = false ∧
      u.events = s.events ∧ (s.dali.busy = true → u.field (aLamp 0x14) 3 1 = 6)) ∧
    exec .daliBusFaultClear s = .next { s with dali := { s.dali with fault := false } }


/-! ## The Sacristy (chapters 17 to 21) -/

/-- R443, R456 to R483, R521 to R529, R544 to R549: the tick, the ADC, temperatures and derating, the lamp given back, doorbells
and heartbeat, the services of the Hatch (by the model's choice an answer to a slot that is still FULL waits for its ACK, log
17) and the telemetry page. LOG_INFO's fields past the status, the window offsets and the other layouts of MSG are the model's
choice (log 11), as are the sequence of the heartbeat (log 6) and what TRNG output is (log 10). -/
def Obligations.SacristySupervision : Prop :=
  ∀ (s : State),
    Answers (exec .sacristyTick s) (fun u => u.sac.ms = s.sac.ms + 1 ∧ bit (u.stall 32).evpend 0 = true) ∧
    (s.fw = true → Answers (exec .sacristyTick s) (fun u =>
      ((∃ y ∈ s.sac.safety.str.toList, 500 ≤ y.openFor) → bit u.sac.safety.causes 2 = true) ∧
      ((∃ y ∈ s.sac.safety.str.toList, 500 ≤ y.shortFor) → bit u.sac.safety.causes 3 = true) ∧
      ((∃ y ∈ s.sac.safety.str.toList, 500 ≤ y.hotFor) → bit u.sac.safety.causes 4 = true) ∧
      ((∀ y ∈ s.sac.safety.str.toList, y.hotFor < 500 ∧ 3750000 ≤ y.hotClear) → bit u.sac.safety.causes 4 = false) ∧
      ((∃ y ∈ s.sac.safety.str.toList, 500 ≤ y.ntcBad) → bit u.sac.safety.causes 5 = true) ∧
      (149 ≤ s.sac.safety.darkFor → s.supervised 0 || s.supervised 1 → s.lampDark = true → s.isDay = false →
        bit u.sac.safety.causes 1 = true) ∧
      (s.sac.mux.taken = true → u.sac.mux.taken = true ∧
        u.sac.safety.releaseFor = (if u.releaseHolds then s.sac.safety.releaseFor + 1 else 0)))) ∧
    (let back := s.fw = true ∧ s.sac.mux.taken = true ∧ s.releaseHolds = true ∧ confReturnMs s.sac.conf ≤ s.sac.safety.releaseFor
     (back → Answers (exec .lampGiveBack s) (fun u => u.sac.mux.taken = false ∧ u.sac.mux.sacDim = false ∧
        u.sac.mux.sacDali = s.dali.sacFrame.isSome ∧ bit u.pins 0 = true ∧ bit u.sac.safety.causes 0 = false ∧
        bit u.sac.safety.causes 1 = false ∧ (∀ n : Fin 8, bit u.sac.mux.sacLp n.val =
          (bit s.sac.mux.sacLp n.val && ((s.lp n.val).state != .stopped))))) ∧
     (¬ back → exec .lampGiveBack s = .next s)) ∧
    (s.sac.mux.taken = true → s.sac.mux.sacDali = true → bit s.sac.vigil.out 2 = true →
      exec .vigilDaliRepeat s = .next { s with dali := { s.dali with sacFrame := some s.vigilFrame } }) ∧
    (∀ (mv : Vector Nat 16) (counted : BitVec 2), Answers (exec (.adcRound mv counted) s) (fun u => u.sac.adc = s.adcRead mv ∧
      bit (u.stall 32).evpend 1 = true ∧ ∀ n : Fin 2, s.fw = true → confSupBit s.sac.conf (3 + n.val) = true → confSupBit s.sac.conf 7 = false →
        mv[12 + n.val] < (confNtc s.sac.conf).2 → (u.sac.safety.str[n]).ntcCut = true ∧ bit u.sac.mux.ldrvEn n.val = false)) ∧
    (∀ (sac : Vector Int 2) (nave : Vector Int 8), s.fw = true →
      ((∀ i : Fin 2, sac[i] < 1280) → (∀ i : Fin 8, nave[i] < 1280) → Answers (exec (.temperatureRead sac nave) s) (fun u =>
        u.sac.sacTemp = sac ∧ (∀ i : Fin 2, sac[i] ≤ u.sac.tjmax) ∧
        (∀ i : Fin 8, u.sac.naveTemp[i] = (if s.naveUp = true ∧ -500 ≤ nave[i] ∧ nave[i] ≤ 1750 then some nave[i] else none)) ∧
        (∀ i : Fin 8, ∀ t, u.sac.naveTemp[i] = some t → t ≤ u.sac.tjmax) ∧ u.power.navePhase = s.power.navePhase)) ∧
      ((∃ i : Fin 2, 1280 ≤ sac[i]) → s.power.railsUp = true → Answers (exec (.temperatureRead sac nave) s) (fun u =>
        NaveDown u ∧ u.power.railsUp = false ∧ u.sac.derate.shutdown = true))) ∧
    (s.sac.derate.shutdown = true → (∀ i : Fin 2, s.sac.sacTemp[i] < 1100) → s.sac.derate.hotAt + 10000 ≤ s.sac.ms →
      s.sac.derate.shutdowns.getLastD 0 + (if 3 ≤ s.sac.derate.shutdowns.length then 3600000 else 60000) ≤ s.sac.ms →
      Answers (exec .thermalRestart s) (fun u => u.sac.derate.shutdown = false ∧ u.sac.derate.startAtD3 = true)) ∧
    (s.sac.ms < s.sac.derate.shutdowns.getLastD 0 + 60000 → exec .thermalRestart s = .next s) ∧
    (s.fw = true → Answers (exec .derateEvaluation s) (fun u =>
      u.sac.derate.level.toNat = (s.modDerate (fun d => { (d.thermalTick s.sac.tjmax).ledgerTick
        (decide (s.ledgerBudget ≠ 0) && decide (s.ledgerBudget < s.used)) with flash := s.flashIndicator })).required ∧
      (1210 ≤ s.sac.tjmax ∨ s.power.brownOut = true ∨ (s.ledgerBudget ≠ 0 ∧ s.ledgerBudget < s.used) →
        u.sac.derate.level = 3))) ∧
    (∀ v, s.sac.derate.vddTo = some v → Answers (exec .vddNaveSettled s) (fun u => u.sac.derate.vdd = v ∧ u.sac.derate.vddTo = none ∧
      u.sac.derate.clocks = (if v.toNat < s.sac.derate.clocks.toNat then v else s.sac.derate.clocks))) ∧
    (∀ x, s.fw = true → Answers (exec (.ageingMeasurement x) s) (fun u => u.sac.derate.ageing = (x :: s.sac.derate.ageing).take 24)) ∧
    (∀ m : Vector Nat 4, s.fw = true → Answers (exec (.laneEyeMeasurement m) s) (fun u => ∀ n : Fin 4,
      u.sac.derate.eyeLow[n] = (if (s.ring.lanes[n]).state = .inService ∧ m[n] < 20 then s.sac.derate.eyeLow[n] + 1 else 0) ∧
      (59 ≤ s.sac.derate.eyeLow[n] → (s.ring.lanes[n]).state = .inService → m[n] < 20 → (s.ring.lanes[n]).rate = 3 →
        u.sac.derate.eyeReq[n] = some (2, 3)))) ∧
    (∀ i : Fin 16, s.unitReady 20 = true →
      ((s.txSlot i.val).full = true → exec (.hatchTxRing i) s = .next s) ∧
      ((s.txSlot i.val).full = false → s.hatch.order = [] → i.val = 15 ∨ knownService (s.txSlot i.val).type = true →
        Answers (exec (.hatchTxRing i) s) (fun u => (u.txSlot i.val).full = true ∧ u.hatch.order = [i] ∧
          bit (u.stall 32).evpend 4 = true)) ∧
      ((s.txSlot i.val).full = false → s.hatch.order = [] → i.val ≠ 15 → knownService (s.txSlot i.val).type = false → s.fw = true →
        (s.rxSlot i.val).full = false → (s.txSlot i.val).type < 0x8000 →
        Answers (exec (.hatchTxRing i) s) (fun u => s.slotAnswered u i (s.txSlot i.val).type 1 [])) ∧
      ((s.txSlot i.val).full = false → s.hatch.order = [] → i.val ≠ 15 → knownService (s.txSlot i.val).type = false → s.fw = true →
        (s.rxSlot i.val).full = true → (s.txSlot i.val).type < 0x8000 → Answers (exec (.hatchTxRing i) s) (fun u =>
          (u.txSlot i.val).full = false ∧ u.rxSlot i.val = s.rxSlot i.val ∧ u.hatch.late = s.hatch.late ++
            [(i.val, HSlot.mk56 ((s.txSlot i.val).type + 0x8000) (s.txSlot i.val).tagB (toBytes 4 1))])) ∧
      ((∀ p ∈ s.hatch.late, p.1 ≠ i.val) → Answers (exec (.hatchRxAck i) s) (fun u => (u.rxSlot i.val).full = false)) ∧
      (∀ h rest, s.hatch.late = (i.val, h) :: rest → Answers (exec (.hatchRxAck i) s) (fun u =>
        u.rxSlot i.val = h ∧ u.hatch.late = rest))) ∧
    (∀ i : Fin 16, s.unitReady 20 = false → exec (.hatchTxRing i) s = .next s.hatchEarly ∧ exec (.hatchRxAck i) s = .next s.hatchEarly) ∧
    (s.fw = true → Answers (exec .heartbeatChallenge s) (fun u => ∃ c : BitVec 32,
      u.sac.hb.posted = s.sac.hb.posted ++ [⟨c, s.sac.hb.seq, none⟩] ∧ u.sac.hb.seq = s.sac.hb.seq + 1 ∧
      (u.rxSlot 15).full = true ∧ (u.rxSlot 15).type = 0x0100 ∧
      (u.rxSlot 15).bytes.take 8 = toBytes 4 c.toNat ++ toBytes 4 s.sac.hb.seq.toNat)) ∧
    (s.hatch.order.head? = some 15 → s.fw = true →
      let h := s.txSlot 15
      let req := bit (h.bytes.getD 8 0) 0
      (∀ c, s.sac.hb.posted = [c] → goodAnswer h.type h.bytes c = true → Answers (exec .heartbeatAnswer s) (fun u =>
        u.sac.hb.posted = [{ c with answer := some req }] ∧ u.sac.hb.armed = (s.sac.hb.armed || s.naveRuns) ∧
        (u.txSlot 15).full = false ∧ (req = false → u.sac.safety.releaseFor = 0))) ∧
      ((∀ c ∈ s.sac.hb.posted, goodAnswer h.type h.bytes c = false) → Answers (exec .heartbeatAnswer s) (fun u =>
        u.sac.hb = s.sac.hb ∧ (u.txSlot 15).full = false))) ∧
    (∀ c rest, s.sac.hb.posted = c :: rest → s.fw = true →
      (c.answer.isSome = true → Answers (exec .heartbeatDeadline s) (fun u =>
        u.sac.hb.posted = rest ∧ u.sac.hb.missed = 0)) ∧
      (c.answer = none → s.sac.hb.armed = false ∨ s.sac.hb.missed = 0 → Answers (exec .heartbeatDeadline s) (fun u =>
        u.sac.hb.posted = rest ∧ u.sac.hb.missed = s.sac.hb.missed + 1)) ∧
      (c.answer = none → s.sac.hb.armed = true → 1 ≤ s.sac.hb.missed → s.naveRuns = true → Answers (exec .heartbeatDeadline s) (fun u =>
        NaveDown u ∧ bit u.sac.safety.causes 0 = true ∧ u.sac.mux.taken = true ∧ bit u.power.nextCauses 4 = true))) ∧
    (s.fw = true → s.sac.hb.grace = true → Answers (exec .heartbeatGraceExpiry s) (fun u => u.sac.hb.armed = true ∧
      u.sac.hb.grace = false)) ∧
    (∀ (i : Fin 16),
      let m := (s.txSlot i.val).bytes
      let ask := fun (typ : Nat) (c : Instr) (status : Nat) (rest : List (BitVec 8)) (P : State → Prop) =>
        Served s i typ → Answers (exec c s) (fun u => s.slotAnswered u i typ status rest ∧ P u)
      (s.sac.log.naveBucket < 1000 → ask 0x1 (.logWrite i) 4 [] (fun u => u.sac.log.naveDrops = s.sac.log.naveDrops + 1 ∧
        u.sac.log.seq = s.sac.log.seq)) ∧
      (1000 ≤ s.sac.log.naveBucket → 1000 ≤ s.sac.log.bucket → s.sac.log.lost = 0 → ask 0x1 (.logWrite i) 0 [] (fun u =>
        u.sac.log.seq = s.sac.log.seq + 1 ∧ u.sac.log.naveBucket = s.sac.log.naveBucket - 1000)) ∧
      ask 0x2 (.logInfo i) 0 (toBytes 4 (s.sac.log.seq.toNat - s.sac.log.held) ++ toBytes 4 (s.sac.log.seq.toNat - 1) ++
        toBytes 4 s.sac.log.drops ++ toBytes 4 s.sac.log.naveDrops) (fun u => u.sac.log = s.sac.log) ∧
      (windowOk (leField m 52 2) 96 = false → ask 0x10 (.sign i) 2 [] (fun u => u.mem = s.mem)) ∧
      (windowOk (leField m 52 2) 96 = true → ask 0x10 (.sign i) (if s.sac.trngFail then 5 else 0) [] (fun u => u.sac = s.sac)) ∧
      (windowOk (leField m 8 2) s.sac.keys.chain.length = true → ask 0x11 (.cert i) 0 (toBytes 4 s.sac.keys.chain.length) (fun u =>
        u.winRead (leField m 8 2) s.sac.keys.chain.length = s.sac.keys.chain)) ∧
      (windowOk (leField m 8 2) 256 = true → ∀ x, s.confNewest = some x → ask 0x20 (.configRead i) 0 [] (fun u =>
        u.winRead (leField m 8 2) x.2.length = x.2)) ∧
      (windowOk (leField m 8 2) 256 = true → s.confNewest = none → ask 0x20 (.configRead i) 5 [] (fun u => u.mem = s.mem)) ∧
      (windowOk (leField m 8 2) 256 = true → ∀ ok, confLock s.sac.conf = true → ask 0x21 (.configWrite i false ok) 3 [] (fun u =>
        u.sac.flash = s.sac.flash)) ∧
      (let c := s.winRead (leField m 8 2) 256
       windowOk (leField m 8 2) 256 = true → (confLock c = true → lockOk c = false → ∀ ok, ask 0x21 (.configWrite i true ok) 2 []
          (fun u => u.sac.flash = s.sac.flash)) ∧
        (confLock c = false ∨ lockOk c = true →
          (s.aisle (match s.confNewest with | some (k, _) => 1 - k | none => 0)).mayErase 1 = true →
          ask 0x21 (.configWrite i true true) 0 [] (fun u => u.sac.flash = ((s.freeTx i.val).confWrite c).sac.flash)) ∧
        (confLock c = false ∨ lockOk c = true → ask 0x21 (.configWrite i true false) 5 [] (fun u => u.sac.conf = s.sac.conf ∧
          u.sac.budget = s.sac.budget))) ∧
      (s.sac.trngFail = true → ask 0x30 (.lcChallenge i) 5 [] (fun u => u.sac.nonce = s.sac.nonce)) ∧
      (s.sac.trngFail = false → ask 0x30 (.lcChallenge i) 0 (s.drawBytes 32).1 (fun u => u.sac.nonce = some (s.drawBytes 32).1)) ∧
      (∀ nonce, s.sac.nonce = some nonce →
        (s.sac.life = .field → ask 0x31 (.lcDebug i true nonce) 0 [] (fun u => u.sac.life = .fieldOpenDebug ∧ u.sac.nonce = none)) ∧
        (s.sac.life ≠ .field → ask 0x31 (.lcDebug i true nonce) 3 [] (fun u => u.sac.life = s.sac.life)) ∧
        (s.sac.life = .field ∨ s.sac.life = .fieldOpenDebug → ask 0x32 (.lcDecommission i true nonce) 0 [] (fun u =>
          u.sac.life = .decommissioned ∧ u.sac.keys.device = 0 ∧ u.sac.keys.cloister = 0 ∧ u.sac.keys.chain = [] ∧
          bit u.sac.safety.causes 9 = true))) ∧
      (∀ nonce, ask 0x31 (.lcDebug i false nonce) 3 [] (fun u => u.sac.life = s.sac.life) ∧
        ask 0x32 (.lcDecommission i false nonce) 3 [] (fun u => u.sac.life = s.sac.life ∧ u.sac.keys = s.sac.keys))) ∧
    (s.fw = true → Answers (exec .telemetryUpdate s) (fun u => leField (u.winRead 0xFC00 4) 0 4 % 2 = 0 ∧
      (u.winRead 0xFC00 8).drop 4 = [BitVec.ofNat 8 s.sac.derate.level.toNat, BitVec.ofNat 8 s.derateCauses,
        BitVec.ofNat 8 (s.sac.mux.taken.toNat + 2 * s.sac.hb.armed.toNat), BitVec.ofNat 8 s.sac.life.code])) ∧
    (s.sac.life = .manufacture → Answers (exec .manufactureToField s) (fun u => u.sac.life = .field)) ∧
    (s.sac.life ≠ .manufacture → exec .manufactureToField s = .next s)


/-! ## Flash, images and lamp safety (chapters 18, 19 and 21) -/

/-- R485 to R501, R503 to R514, R526, R531, R533: the commands of a flash controller and how they end, the scrubber, the flash
services, staging, activation and live exchange, confirmation, the service UART, cuts, the schedule vote and the self-tests.
MARGIN_FAIL for an erase that does not verify is the model's reading (log 17), the layouts of the service UART are its
choice (log 11), and so is the whole-number arithmetic of R526's elevation (log 12). -/
def Obligations.FlashImagesAndCuts : Prop :=
  ∀ (s : State),
    (∀ (a : Aisle) (nw : BitVec 3) (mode : BitVec 2),
      let f := s.aisle a.val
      let w := s.field (aFl a.val 4) 22 5
      let n := nw.toNat + 1
      let result := fun (u : State) (r : Nat) => u.field (aFl a.val 8) 7 4 = r ∧ u.flag (aFl a.val 8) 1 = true ∧
        bit (u.stall 32).evpend 7 = true ∧ u.aisle a.val = f
      (∀ c ∈ [Instr.program a nw, .zero a nw, .mread a nw mode, .eraseSector a, .eraseBlock a], f.cmd.isSome = true →
        Answers (exec c s) (fun u => u.aisle a.val = f)) ∧
      (f.cmd = none →
        (∀ x ∈ [(FlOp.program, Instr.program a nw), (.zero, .zero a nw), (.mread, .mread a nw mode)],
          (8 < w % 8 + n → Answers (exec x.2 s) (fun u => result u 5)) ∧
          (w % 8 + n ≤ 8 → (f.hdr (w / 128)).incomplete = true → Answers (exec x.2 s) (fun u => result u 3)) ∧
          (w % 8 + n ≤ 8 → (f.hdr (w / 128)).incomplete = false → (∀ k, k < n → f.word (w + k) = none) →
            Answers (exec x.2 s) (fun u => (u.aisle a.val).words = f.words ∧ ∃ c, (u.aisle a.val).cmd = some c ∧ c.op = x.1 ∧
              c.word = w ∧ c.n = n ∧ c.nave = none ∧
              (x.1 = .program → c.data = (List.range n).map (fun k => s.pageWord a.val (w + k)))))) ∧
        (w % 8 + n ≤ 8 → (f.hdr (w / 128)).incomplete = false →
          (∃ k, k < n ∧ f.word (w + k) ≠ none ∧ f.word (w + k) ≠ some (.programmed (s.pageWord a.val (w + k)))) →
          Answers (exec (.program a nw) s) (fun u => result u 2)) ∧
        (w % 8 + n ≤ 8 → (f.hdr (w / 128)).incomplete = false →
          (∀ k, k < n → f.word (w + k) = some (.programmed (s.pageWord a.val (w + k)))) →
          Answers (exec (.program a nw) s) (fun u => (u.aisle a.val).words = f.words ∧ ∃ c, (u.aisle a.val).cmd = some c ∧
            c.op = .program ∧ c.word = w ∧ c.n = n)) ∧
        Answers (exec (.eraseSector a) s) (fun u => (u.aisle a.val).words = f.words ∧ ((u.aisle a.val).hdr (w / 128)).incomplete = true ∧
          ∃ c, (u.aisle a.val).cmd = some c ∧ c.op = .eraseSector ∧ c.word = w) ∧
        Answers (exec (.eraseBlock a) s) (fun u => (∀ k, k < 16 → ((u.aisle a.val).hdr (w / 2048 * 16 + k)).incomplete = true) ∧
          ∃ c, (u.aisle a.val).cmd = some c ∧ c.op = .eraseBlock ∧ c.word = w)) ∧
      (∀ (c : FlCmd) (fails : BitVec 8) (ok : Bool), f.cmd = some c → f.susp = false → f.queue = [] → s.sac.log.queue = [] →
        let g : FlashAisle := { f with cmd := none }
        let ends := fun (u : State) (x : FlashAisle) (r : Nat) => u.aisle a.val = x ∧ u.field (aFl a.val 8) 7 4 = r ∧
          u.flag (aFl a.val 8) 1 = true ∧ bit (u.stall 32).evpend 7 = true
        (c.nave = none → (c.op = .program → Answers (exec (.flashCommandDone a fails ok) s) (fun u => ends u (g.progs c.word c.data) 0)) ∧
          (c.op = .zero → Answers (exec (.flashCommandDone a fails ok) s) (fun u =>
            ends u ((List.range c.n).foldl (fun x k => x.zero (c.word + k)) g) 0)) ∧
          (c.op = .eraseSector → Answers (exec (.flashCommandDone a fails ok) s) (fun u =>
            if ok then ends u (g.eraseSectors (c.word / 128) 1) 0 else ends u g 1)) ∧
          (c.op = .eraseBlock → Answers (exec (.flashCommandDone a fails ok) s) (fun u =>
            if ok then ends u (g.eraseSectors (c.word / 2048 * 16) 16) 0 else ends u g 1)) ∧
          (c.op = .mread → Answers (exec (.flashCommandDone a fails ok) s) (fun u =>
            ends u g (if bits fails (c.n - 1) 0 = 0 then 0 else 1)))) ∧
        (∀ i tag, c.nave = some (i, tag) → c.op = .program → c.rest = [] → Answers (exec (.flashCommandDone a fails ok) s) (fun u =>
          u.aisle a.val = g.progs c.word c.data ∧ ((s.rxSlot i.val).full = false → u.rxSlot i.val = HSlot.mk56 0x8041 tag (toBytes 4 0)) ∧
          ((s.rxSlot i.val).full = true → u.rxSlot i.val = s.rxSlot i.val ∧
            u.hatch.late = s.hatch.late ++ [(i.val, HSlot.mk56 0x8041 tag (toBytes 4 0))])))) ∧
      exec (.eraseResume a) s = .next (s.modAisle a.val (fun f => { f with susp := false })) ∧
      (∀ (sec : Fin 2048) (weak : BitVec 128), s.fw = true → f.cmd = none → (f.hdr sec.val).incomplete = false →
        (∀ k, k < 128 → f.word (128 * sec.val + k) ≠ some .uncorrectable) →
        let t := f.scrubbed + ((List.range 128).filter (fun k => (bit weak k || f.weak.contains (128 * sec.val + k)) &&
          (match f.word (128 * sec.val + k) with | some (.programmed _) => true | _ => false))).length
        Answers (exec (.flashScrubSector a sec weak 0 0 false) s) (fun u => (u.aisle a.val).words = f.words ∧
          (u.aisle a.val).weak = f.weak.filter (fun x => x / 128 ≠ sec.val) ∧
          (sec.val ≠ 2047 → (u.aisle a.val).scrubbed = t) ∧
          (sec.val = 2047 → (u.aisle a.val).lastPass = t ∧ (u.aisle a.val).scrubbed = 0)))) ∧
    (∀ (i : Fin 16),
      let h := s.txSlot i.val
      let m := h.bytes
      let r := leField m 4 4
      let x := regionAt r
      let y := s.inactive 1
      let ask := fun (typ : Nat) (c : Instr) (status : Nat) (rest : List (BitVec 8)) (P : State → Prop) =>
        Served s i typ → Answers (exec c s) (fun u => s.slotAnswered u i typ status rest ∧ P u)
      (∃ n, ask 0x40 (.flInfo i) 0 (toBytes 4 0x400000 ++ toBytes 4 n) (fun u => u.sac.flash = s.sac.flash)) ∧
      (s.flBusy = true → ask 0x41 (.flProgram i) 4 [] (fun u => u.sac.flash = s.sac.flash) ∧
        ask 0x42 (.flErase i) 4 [] (fun u => u.sac.flash = s.sac.flash)) ∧
      (s.flBusy = false → 0x400000 ≤ r → ask 0x41 (.flProgram i) 3 [] (fun u => u.sac.flash = s.sac.flash) ∧
        ask 0x42 (.flErase i) 3 [] (fun u => u.sac.flash = s.sac.flash)) ∧
      (Served s i 0x41 → s.flBusy = false → (s.aisle x.1).cmd = none → ((s.aisle x.1).hdr (x.2 / 4096)).incomplete = false →
        let off := leField m 8 2
        let len := leField m 10 2
        r % 32 = 0 → off % 32 = 0 → len % 32 = 0 → 32 ≤ len → r % 4096 + len ≤ 4096 → r + len ≤ 0x400000 → windowOk off len = true →
        (∀ k, k < len / 32 → (s.aisle x.1).word (x.2 / 32 + k) = none) →
        Answers (exec (.flProgram i) s) (fun u => (u.txSlot i.val).full = false ∧ ∃ c, (u.aisle x.1).cmd = some c ∧ c.op = .program ∧
          c.word = x.2 / 32 ∧ c.nave = some (i, h.tagB) ∧ c.data ++ c.rest = wordsOf (len / 32) (s.winRead off len))) ∧
      (Served s i 0x42 → s.flBusy = false → (s.aisle x.1).cmd = none → r < 0x400000 → r % 4096 = 0 → leField m 8 1 = 0 →
        (s.aisle x.1).mayErase (x.2 / 4096) = true → Answers (exec (.flErase i) s) (fun u => (u.txSlot i.val).full = false ∧
          ∃ c, (u.aisle x.1).cmd = some c ∧ c.op = .eraseSector ∧ c.word = x.2 / 32 ∧ c.nave = some (i, h.tagB))) ∧
      (r < 0x400000 → r % 4096 = 0 → ask 0x43 (.flWear i) 0 (toBytes 4 ((s.aisle x.1).hdr (x.2 / 4096)).count ++
        [BitVec.ofNat 8 ((s.aisle x.1).hdr (x.2 / 4096)).incomplete.toNat]) (fun u => u.sac.flash = s.sac.flash)) ∧
      (0x400000 ≤ r → ask 0x43 (.flWear i) 3 [] (fun u => u.sac.flash = s.sac.flash)) ∧
      (s.sac.upd.staging.isSome = true → ask 0x50 (.stageBegin (.hatch i) true) 4 [] (fun u => u.sac.upd = s.sac.upd)) ∧
      (s.sac.upd.staging = none → leField m 4 1 = 2 → leField m 8 4 ≠ 0 → leField m 8 4 ≤ 0x400000 →
        let n := (leField m 8 4 + 65535) / 65536 * 16
        (∀ k, k < n → (s.aisle y).mayErase (80 + k) = true) →
        ask 0x50 (.stageBegin (.hatch i) true) 0 [BitVec.ofNat 8 y] (fun u =>
          u.aisle y = (if (s.slot y 1).state = .staged then (s.aisle y).withdraw 1 else s.aisle y).eraseSectors 80 n ∧
          (u.slot y 1).state ≠ .staged ∧ u.sac.upd.measured = false ∧ ∃ g, u.sac.upd.staging = some g ∧ g.kind = 1 ∧ g.len = leField m 8 4 ∧ g.uart = false ∧ g.aisle.val = y) ∧
        ask 0x50 (.stageBegin (.hatch i) false) 5 [] (fun u => u.sac.upd = s.sac.upd)) ∧
      (s.sac.upd.staging = none → ask 0x51 (.stageWrite (.hatch i) true) 3 [] (fun u => u.sac.flash = s.sac.flash) ∧
        ask 0x52 (.stageEnd (.hatch i) true true) 3 [] (fun u => u.sac.upd = s.sac.upd)) ∧
      (∀ g : Staging, s.sac.upd.staging = some g → g.uart = true → ask 0x51 (.stageWrite (.hatch i) true) 4 [] (fun u =>
        u.sac.flash = s.sac.flash) ∧ ask 0x52 (.stageEnd (.hatch i) true true) 4 [] (fun u => u.sac.upd = s.sac.upd)) ∧
      (∀ g : Staging, s.sac.upd.staging = some g → g.uart = false →
        let off := leField m 4 4
        let len := leField m 10 2
        let w := (slotBase g.kind.val + off) / 32
        (off % 32 = 0 → len % 32 = 0 → 32 ≤ len → len ≤ 4096 → off + len ≤ g.len → windowOk (leField m 8 2) len = true →
          (∀ k, k < len / 32 → (s.aisle g.aisle.val).word (w + k) = none) → ask 0x51 (.stageWrite (.hatch i) true) 0 [] (fun u =>
            u.aisle g.aisle.val = (s.aisle g.aisle.val).progs w (wordsOf (len / 32) (s.winRead (leField m 8 2) len)))) ∧
        (∀ ok sig, s.imageReason g.aisle.val g.kind.val ok sig = 0 → ask 0x52 (.stageEnd (.hatch i) ok sig) 0 [] (fun u =>
          u.sac.upd.staging = none ∧ (u.slot g.aisle.val g.kind.val).state = .staged)) ∧
        (∀ ok sig, s.imageReason g.aisle.val g.kind.val ok sig ≠ 0 → ask 0x52 (.stageEnd (.hatch i) ok sig) 5
          (toBytes 4 (s.imageReason g.aisle.val g.kind.val ok sig)) (fun u => u.sac.upd.staging = none ∧ u.sac.upd.slots = s.sac.upd.slots))) ∧
      (leField m 4 1 = 2 → (s.slot y 1).state = .staged → leField m 5 1 ≠ 1 → ask 0x53 (.activate (.hatch i)) 0 [] (fun u =>
        (u.slot y 1).state = .trial ∧ u.sac.upd.waitActivate = false)) ∧
      (Served s i 0x53 → leField m 4 1 = 2 → (s.slot y 1).state = .staged → leField m 5 1 = 1 → s.naveRuns = true →
        Answers (exec (.activate (.hatch i)) s) (fun u => NaveDown u ∧ (u.slot y 1).state = .trial ∧ bit u.power.nextCauses 5 = true)) ∧
      (leField m 4 1 = 2 → (s.slot y 1).state ≠ .staged → ask 0x53 (.activate (.hatch i)) 3 [] (fun u => u.sac.upd = s.sac.upd)) ∧
      ((s.slot y 1).state ≠ .staged → ask 0x54 (.lgMeasure i) 3 [] (fun u => u.sac.upd = s.sac.upd)) ∧
      (let hd := s.imgHeader y 1
       let run := match s.runningImg 1 with
         | some b => s.imgHeader b.val 1
         | none => []
       let pa := leField m 4 8
       let c := ((s.freeTx i.val).sacRead pa (leField hd 0x14 4)).1
       (s.slot y 1).state = .staged → pa + leField hd 0x14 4 ≤ 2 ^ 44 →
        (sha384 c = (hd.drop 0x38).take 48 → leField hd 0x34 4 = leField run 0x34 4 → (hd.drop 0x68).take 48 = (run.drop 0x68).take 48 →
          ask 0x54 (.lgMeasure i) 0 [] (fun u => u.sac.upd.measured = true)) ∧
        (sha384 c ≠ (hd.drop 0x38).take 48 → ask 0x54 (.lgMeasure i) 5 [3] (fun u => u.sac.upd = s.sac.upd))) ∧
      (1 ≤ r → r ≤ 600 → s.sac.upd.measured = true → (s.slot y 1).state = .staged → ask 0x55 (.lgCommit i) 0 [] (fun u =>
        (u.slot y 1).state = .trying ∧ u.sac.upd.deadline = some r ∧ u.sac.upd.measured = false ∧
        (u.runningImg 1).map Fin.val = some y)) ∧
      (r < 1 ∨ 600 < r → ask 0x55 (.lgCommit i) 2 [] (fun u => u.sac.upd = s.sac.upd)) ∧
      (1 ≤ r → r ≤ 600 → s.sac.upd.measured = false → ask 0x55 (.lgCommit i) 3 [] (fun u => u.sac.upd = s.sac.upd)) ∧
      ask 0x56 (.lgAbort i) (if s.sac.upd.measured then 0 else 3) [] (fun u => u.sac.upd = { s.sac.upd with measured := false }) ∧
      (∀ a : Aisle, leField m 4 1 = 2 → s.runningImg 1 = some a → (s.slot a.val 1).state = .trying → s.sac.upd.expired = false →
        (∀ blown, (s.slot a.val 1).svn ≤ s.sac.upd.f1 ∨ blown = true → ask 0x57 (.confirm i blown) 0 [] (fun u =>
          (u.slot a.val 1).state = .confirmed ∧ u.sac.upd.f1 = max s.sac.upd.f1 (s.slot a.val 1).svn ∧ u.sac.upd.deadline = none)) ∧
        (s.sac.upd.f1 < (s.slot a.val 1).svn → ask 0x57 (.confirm i false) 5 [] (fun u => u.sac.upd = s.sac.upd))) ∧
      (leField m 4 1 = 2 → s.runningImg 1 = none → ask 0x57 (.confirm i true) 3 [] (fun u => u.sac.upd = s.sac.upd)) ∧
      ask 0x58 (.slotInfo i) 0 (toBytes 2 s.sac.upd.f0 ++ toBytes 2 s.sac.upd.f1 ++
        s.sac.upd.slots.toList.map (fun x => BitVec.ofNat 8 x.state.code) ++ [0, 0, 0, 0]) (fun u => u.sac.upd = s.sac.upd)) ∧
    (∀ d, s.fw = true → s.sac.upd.deadline = some d → s.naveRuns = true → Answers (exec .exchangeDeadline s) (fun u =>
      NaveDown u ∧ u.sac.upd.deadline = none ∧ bit u.power.nextCauses 5 = true)) ∧
    (∀ (a : Aisle), s.fw = true → s.runningImg 0 = some a → (s.slot a.val 0).state = .trying →
      Answers (exec (.firmwareSelfConfirm true) s) (fun u => (u.slot a.val 0).state = .confirmed ∧
        u.sac.upd.f0 = max s.sac.upd.f0 (s.slot a.val 0).svn)) ∧
    (s.svcUp = true →
      Answers (exec .svcStatus s) (fun u => (∃ rest, u.sac.svcTx = svcFrame 0x81
        ([0, BitVec.ofNat 8 s.sac.life.code, BitVec.ofNat 8 s.straps.bootsel.toNat] ++ rest)) ∧ bit (u.stall 32).evpend 8 = true) ∧
      (∀ first n, 1 ≤ n → n ≤ 128 → Answers (exec (.svcLogRead first n) s) (fun u => u.sac.svcTx = svcFrame 0x82 (0 ::
        (List.range n).flatMap (fun k => match s.logRecord (first.toNat + k) with | some d => toBytes 32 d.toNat | none => [])))) ∧
      (∀ first n, n < 1 ∨ 128 < n → Answers (exec (.svcLogRead first n) s) (fun u => u.sac.svcTx = svcFrame 0x82 [2])) ∧
      (s.sac.life ≠ .decommissioned → s.sac.upd.staging.isSome = true → ∀ m, Answers (exec (.stageBegin (.uart m []) true) s) (fun u =>
        u.sac.svcTx = svcFrame 0x90 [4] ∧ u.sac.upd = s.sac.upd))) ∧
    exec .svcFrameTimeout s = .next { s with sac := { s.sac with svcRx := [] } } ∧
    (∀ n : Fin 2, confIsnsMax s.sac.conf n.val ≠ 0 → confSupBit s.sac.conf 7 = false → Answers (exec (.overcurrentCut n) s) (fun u =>
      (u.sac.safety.str[n]).cut = true ∧ bit u.sac.mux.ldrvEn n.val = false ∧ bit (u.stall 32).evpend 3 = true ∧
      (2 ≤ ((s.sac.safety.str[n]).cuts.filter (fun t => decide (s.sac.ms < t + 60000))).length → (u.sac.safety.str[n]).latched = true))) ∧
    (∀ n : Fin 2, (s.sac.safety.str[n]).latched = false → Answers (exec (.overcurrentCutRelease n) s) (fun u =>
      (u.sac.safety.str[n]).cut = false)) ∧
    (∀ n : Fin 2, (s.sac.safety.str[n]).latched = true → Answers (exec (.overcurrentCutRelease n) s) (fun u =>
      u.sac.safety.str[n] = s.sac.safety.str[n] ∧ bit u.sac.mux.ldrvEn n.val = false)) ∧
    (s.fw = true →
      let e := sinElevation s.tt.sac.toNat (confLat s.sac.conf) (confLon s.sac.conf)
      let night := sinFx ((confElev s.sac.conf).1 * 10000)
      let day := sinFx ((confElev s.sac.conf).2 * 10000)
      let known := s.tt.sacSynced = true ∧ confSupBit s.sac.conf 6 = true
      (¬ known → Answers (exec .scheduleVote s) (fun u => u.sac.safety.schedNight = true)) ∧
      (known → e < night → Answers (exec .scheduleVote s) (fun u => u.sac.safety.schedNight = true)) ∧
      (known → night ≤ e → day < e → Answers (exec .scheduleVote s) (fun u => u.sac.safety.schedNight = false)) ∧
      (known → night ≤ e → e ≤ day → exec .scheduleVote s = .next s)) ∧
    (s.fw = true → Answers (exec (.latentSelfTest true) s) (fun u => bit u.sac.safety.causes 6 = false ∧ u.sac.safety.testFailed = false) ∧
      Answers (exec (.latentSelfTest false) s) (fun u => bit u.sac.safety.causes 6 = true ∧ u.sac.safety.testFailed = true ∧
        (bit s.sac.safety.causes 6 = false → u.sac.mux.taken = true)))


/-! ## Low-speed I/O (chapter 23) -/

/-- R578 to R585: the queues of the I²C, SPI and UART controllers, what ends a transfer and which status it sets, the event
LSIO, and the GPIO registers and edges; a ball of an unpowered bank gives nothing (R42). -/
def Obligations.SerialPortsAndGpio : Prop :=
  ∀ (s : State),
    (∀ (n : Fin 3),
      let q := s.i2c n.val
      let st := aLsio (0x100 * n.val + 0xC)
      (∀ d : BitVec 8, ∀ x ∈ [((0 : BitVec 3), d, Instr.i2cStart n d), (1, d, .i2cSend n d), (2, 0, .i2cReadAck n),
          (3, 0, .i2cReadNack n), (4, 0, .i2cStop n)], s.unitOpen 21 →
        (q.queue.length < 16 → Answers (exec x.2.2 s) (fun u => u.i2c n.val = { q with queue := q.queue ++ [(x.1, x.2.1)] } ∧ u.regs = s.regs)) ∧
        (16 ≤ q.queue.length → exec x.2.2 s = .next s)) ∧
      (∀ (cmd : BitVec 3) (d : BitVec 8) (rest : List (BitVec 3 × BitVec 8)), q.queue = (cmd, d) :: rest →
        s.flag (aLsio (0x100 * n.val)) 0 = true → s.unitReady 21 = true → s.bankUp 0 = true →
        Answers (exec (.i2cCommandDone n .arbLost) s) (fun u => u.i2c n.val = { q with queue := [], busy := false } ∧
          u.flag st 2 = true ∧ u.flag st 4 = true) ∧
        (cmd.toNat ≤ 1 → Answers (exec (.i2cCommandDone n .nack) s) (fun u => u.i2c n.val = { q with queue := [], busy := false } ∧
          u.flag st 1 = true ∧ u.flag st 4 = true)) ∧
        (1 < cmd.toNat → exec (.i2cCommandDone n .nack) s = .next s) ∧
        (∀ rx, (cmd = 0 → Answers (exec (.i2cCommandDone n (.done rx)) s) (fun u => u.i2c n.val = { q with queue := rest, busy := true })) ∧
          (cmd = 1 → Answers (exec (.i2cCommandDone n (.done rx)) s) (fun u => u.i2c n.val = { q with queue := rest })) ∧
          (cmd = 2 ∨ cmd = 3 → q.rx.length < 16 → Answers (exec (.i2cCommandDone n (.done rx)) s) (fun u =>
            u.i2c n.val = { q with queue := rest, rx := q.rx ++ [rx] })) ∧
          (cmd = 2 ∨ cmd = 3 → 16 ≤ q.rx.length → exec (.i2cCommandDone n (.done rx)) s = .next s) ∧
          (cmd = 4 → rest = [] → Answers (exec (.i2cCommandDone n (.done rx)) s) (fun u =>
            u.i2c n.val = { q with queue := [], busy := false } ∧ u.flag st 4 = true ∧
            (s.flag (aLsio (0x100 * n.val + 0x10)) 4 = true → bit s.events.running 48 = false → s.reg (aTarget 48) ≠ 0 →
              s.naveRuns = true → ∃ e ∈ u.events.flight, e.n = 48))))) ∧
      (q.queue ≠ [] ∨ q.busy = true → Answers (exec (.i2cStretchTimeout n) s) (fun u =>
        u.i2c n.val = { q with queue := [], busy := false } ∧ u.flag st 3 = true ∧ u.flag st 4 = true)) ∧
      (q.queue = [] → q.busy = false → exec (.i2cStretchTimeout n) s = .next s)) ∧
    (∀ (n : Fin 2),
      let p := s.spi n.val
      let base := 0x400 + 0x100 * n.val
      (∀ d cs last, s.unitOpen 21 → (p.tx.length < 32 → Answers (exec (.spiTxWrite n d cs last) s) (fun u =>
          u.spi n.val = { p with tx := p.tx ++ [(d, cs, last)] })) ∧ (32 ≤ p.tx.length → exec (.spiTxWrite n d cs last) s = .next s)) ∧
      (∀ d cs last rest rx, p.tx = (d, cs, last) :: rest → s.flag (aLsio base) 0 = true → p.rx.length < 32 → s.bankUp 0 = true →
        Answers (exec (.spiByteDone n rx) s) (fun u => u.spi n.val = ⟨rest, p.rx ++ [rx], putBit p.csLow cs.toNat (!last)⟩ ∧
          (rest = [] → u.flag (aLsio (base + 0xC)) 1 = true))) ∧
      (∀ rx, 32 ≤ p.rx.length → s.bankUp 0 = true → exec (.spiByteDone n rx) s = .next s)) ∧
    (∀ (n : Fin 2),
      let p := s.uart n.val
      let base := 0x800 + 0x100 * n.val
      (∀ d, s.unitOpen 21 → (p.tx.length < 64 → Answers (exec (.uartTxWrite n d) s) (fun u =>
          u.uart n.val = { p with tx := p.tx ++ [d] })) ∧ (64 ≤ p.tx.length → exec (.uartTxWrite n d) s = .next s)) ∧
      (s.flag (aLsio base) 0 = true → s.bankUp 0 = true →
        (p.tx ≠ [] → s.flag (aLsio base) 1 = false ∨ p.ctsN = false → Answers (exec (.uartCharSent n) s) (fun u =>
          u.uart n.val = { p with tx := p.tx.drop 1 })) ∧
        (s.flag (aLsio base) 1 = true → p.ctsN = true → exec (.uartCharSent n) s = .next s)) ∧
      (∀ (d : BitVec 8) (pe fe brk : Bool), s.flag (aLsio base) 0 = true → s.unitReady 21 = true →
        (s.bankUp 0 = false → exec (.uartCharRx n d pe fe brk) s = .next s) ∧ (s.bankUp 0 = true →
        (p.rx.length < 64 → s.field (aLsio base) 3 2 ≠ 0 → s.flag (aLsio base) 5 = false → brk = false →
          Answers (exec (.uartCharRx n d pe fe brk) s) (fun u => u.uart n.val = { p with
            rx := p.rx ++ [BitVec.ofNat 11 (d.toNat + 256 * pe.toNat + 512 * fe.toNat)] })) ∧
        (64 ≤ p.rx.length → Answers (exec (.uartCharRx n d pe fe brk) s) (fun u => u.uart n.val = p ∧
          u.flag (aLsio (base + 0x10)) 2 = true)))) ∧
      (∀ level, Answers (exec (.uartCtsNChange n level) s) (fun u => u.uart n.val = { p with ctsN := level } ∧ u.regs = s.regs))) ∧
    (∀ d : BitVec 32, s.unitOpen 21 →
      Answers (exec (.gpioSet d) s) (fun u => u.reg (aLsio 0xC80) = s.reg (aLsio 0xC80) ||| d) ∧
      Answers (exec (.gpioClr d) s) (fun u => u.reg (aLsio 0xC80) = s.reg (aLsio 0xC80) &&& ~~~ d)) ∧
    (∀ (n : Fin 32) (level : Bool),
      let irq := s.field (aLsio (0xC00 + 4 * n.val)) 13 12
      let w := { s with lsio := { s.lsio with gpioIn := putBit s.lsio.gpioIn n.val level } }.gpioLevel n.val
      let seen := bit s.lsio.gpioSeen n.val ≠ w ∧ s.unitReady 21 = true ∧ (if w then irq % 2 = 1 else irq / 2 = 1)
      (s.gpioPowered n.val = true → s.scanDrive (24 + n.val) = none → s.field (aLsio (0xC00 + 4 * n.val)) 1 0 = 0 → w = level) ∧
      (seen → Answers (exec (.gpioEdge n level) s) (fun u => bit u.lsio.gpioIn n.val = level ∧ u.flag (aLsio 0xC90) n.val = true)) ∧
      (¬ seen → Answers (exec (.gpioEdge n level) s) (fun u => bit u.lsio.gpioIn n.val = level ∧
        u.flag (aLsio 0xC90) n.val = s.flag (aLsio 0xC90) n.val)))


/-! ## Test and debug (chapter 23) -/

/-- R586 to R597: the TAP's instructions and its gate, debug transfers, HALT (of a stall in a GRANT.FENCE at its boundary),
RESUME and STEP, the registers and memory that the debug module reaches, NAVE_RESET and the message channel. A selection of
DBG_RSEL that no register has ends in ERROR by the model's choice (log 31). -/
def Obligations.TestAndDebug : Prop :=
  ∀ (s : State),
    let scan := bit s.dbg.gate 1 = true
    let ir := fun (i : TapInstr) => { s with tap := { s.tap with ir := i } }
    exec .tapReset s = .next (ir .idcode) ∧
    (s.tapUp = true →
      Answers (exec .idcode s) (fun u => u.tap.ir = .idcode ∧ u.answer = s.idRegister.zeroExtend 64) ∧
      exec .clamp s = .next (ir .clamp) ∧ exec .highz s = .next (ir .highz) ∧ exec .dbgXfer s = .next (ir .dbgXfer) ∧
      exec .bypass s = .next (ir .bypass) ∧
      (∀ x y : BitVec 192, (scan →
          Answers (exec (.samplePreload x y) s) (fun u => u.tap = ⟨.samplePreload, s.cellCapture x, y⟩) ∧
          Answers (exec (.extest x y) s) (fun u => u.tap = ⟨.extest, s.cellCapture x, y⟩ ∧
            u.nrstBall = (if bit y 184 then some (bit y 183) else none))) ∧
        (¬ scan → exec (.samplePreload x y) s = .next (ir .samplePreload) ∧ exec (.extest x y) s = .next (ir .extest)))) ∧
    (s.tapUp = false → ∀ x y : BitVec 192, exec .idcode s = .next s ∧ exec .bypass s = .next s ∧ exec (.extest x y) s = .next s) ∧
    (s.tapUp = true → s.tapActs = .dbgXfer → ∀ (op : BitVec 2) (reg : BitVec 14) (d : BitVec 32) (busy : Bool),
      let prev := BitVec.ofNat 64 (s.dbg.status.toNat * 2 ^ 46 + s.dbg.data.toNat)
      let open_ := bit s.dbg.gate 0 = true ∧ s.unitReady 22 = true
      (op = 0 ∨ op = 3 → exec (.debugTransferAccess op reg d busy) s = .next { s with answer := prev }) ∧
      (op = 1 ∨ op = 2 → open_ → busy = true → Answers (exec (.debugTransferAccess op reg d busy) s) (fun u =>
        u.answer = prev ∧ u.dbg.status = 1 ∧ u.stalls = s.stalls)) ∧
      (op = 1 ∨ op = 2 → bit s.dbg.gate 0 = false → s.unitReady 22 = true → busy = false →
        Answers (exec (.debugTransferAccess op reg d busy) s) (fun u => u.answer = prev ∧ u.dbg.status = 2 ∧ u.dbg.sel = s.dbg.sel)) ∧
      (open_ → Answers (exec (.debugTransferAccess 1 1 d false) s) (fun u => u.answer = prev ∧ u.dbg.status = 0 ∧
          u.dbg.data.toNat = s.dbg.sel.val) ∧
        Answers (exec (.debugTransferAccess 2 1 d false) s) (fun u => u.answer = prev ∧ u.dbg.status = 0 ∧
          u.dbg.sel.val = bits d 4 0))) ∧
    (s.tapUp = false ∨ ¬ scan ∨ s.unitReady 22 = false → ∀ c ∈ [Instr.halt, .resume, .step, .dbgCmdNaveReset 0x5AC7, .dbgRegRead,
      .dbgRegWrite, .dbgMemRead, .dbgMemWrite 0, .dbgMsgRing, .dbgMsgAck], exec c s = .next s) ∧
    (s.tapUp = true → scan → s.unitReady 22 = true → bit s.dbg.gate 0 = false → ∀ c ∈ [Instr.halt, .resume, .step,
      .dbgCmdNaveReset 0x5AC7, .dbgRegRead, .dbgRegWrite, .dbgMemRead, .dbgMemWrite 0, .dbgMsgRing, .dbgMsgAck],
      exec c s = .next { s with dbg := { s.dbg with status := 2, data := 0 } }) ∧
    (s.tapUp = true → scan → s.unitReady 22 = true → bit s.dbg.gate 0 = true →
      let n := s.dbg.sel.val
      let t := s.stall n
      (s.dbgBarred n = true → ∀ c ∈ [Instr.halt, .resume, .step, .dbgRegRead, .dbgRegWrite],
        exec c s = .next { s with dbg := { s.dbg with status := 2, data := 0 } }) ∧
      (s.dbgBarred n = false → s.coreDown (n / 8) = false →
        (t.state = .running ∨ t.state = .ready → s.inFence n = false → Answers (exec .halt s) (fun u => (u.stall n).state = .halted ∧
          (u.stall n).haltedFrom = .ready ∧ (u.stall n).haltCause = 1 ∧ u.dbg.status = 0)) ∧
        (t.state = .far ∨ t.state = .miss ∨ (t.state = .running ∧ s.inFence n = true) → Answers (exec .halt s) (fun u => (u.stall n).state = t.state ∧
          (u.stall n).haltReq = some 1 ∧ u.dbg.status = 0)) ∧
        (t.state = .off ∨ t.state = .lockdown → ∀ c ∈ [Instr.halt, .resume, .step],
          exec c s = .next { s with dbg := { s.dbg with status := 3, data := 0 } }) ∧
        (t.state = .halted →
          (t.haltedFrom = .ready → Answers (exec .resume s) (fun u => (u.stall n).state = .ready ∧ (u.stall n).stepping = false ∧
            (u.stall n).pcc = t.pcc ∧ u.dbg.status = 0)) ∧
          (t.haltedFrom = .stopped → Answers (exec .resume s) (fun u => (u.stall n).state = .stopped)) ∧
          Answers (exec .step s) (fun u => (u.stall n).state = .ready ∧ (u.stall n).stepping = true ∧ u.dbg.status = 0)) ∧
        (t.state = .running ∨ t.state = .ready ∨ t.state = .waiting ∨ t.state = .stopped → ∀ c ∈ [Instr.resume, .step],
          exec c s = .next { s with dbg := { s.dbg with status := 3, data := 0 } })) ∧
      (s.naveRuns = true → Answers (exec (.dbgCmdNaveReset 0x5AC7) s) (fun u => NaveDown u ∧ bit u.power.nextCauses 3 = true)) ∧
      (∀ k, k ≠ 0x5AC7 → Answers (exec (.dbgCmdNaveReset k) s) (fun u => u.stalls = s.stalls ∧ u.power = s.power ∧ u.dbg.status = 0)) ∧
      (s.dbgBarred n = false →
        (t.state ≠ .halted → t.state ≠ .lockdown → ∀ c ∈ [Instr.dbgRegRead, .dbgRegWrite],
          exec c s = .next { s with dbg := { s.dbg with status := 3, data := 0 } }) ∧
        (t.state = .halted ∨ t.state = .lockdown →
          (∀ v, s.sqRead (s.dbg.rsel.zeroExtend 64) n = some v → Answers (exec .dbgRegRead s) (fun u => u.dbg.rdata = v.bits ∧
            u.dbg.rtag = v.tag ∧ u.dbg.status = 0 ∧ u.stalls = s.stalls)) ∧
          (s.sqRead (s.dbg.rsel.zeroExtend 64) n = none → ∀ c ∈ [Instr.dbgRegRead, .dbgRegWrite],
            exec c s = .next { s with dbg := { s.dbg with status := 3, data := 0 } }) ∧
          (∀ v w, s.sqRead (s.dbg.rsel.zeroExtend 64) n = some v →
            s.sqWrite (s.dbg.rsel.zeroExtend 64) n ⟨s.dbg.rdata, v.tag && s.dbg.rdata == v.bits⟩ = some w →
            exec .dbgRegWrite s = .next { w with dbg := { w.dbg with status := 0, data := 0 } }))) ∧
      (let a := s.dbg.maddr.toNat
       (a % 4 ≠ 0 → ∀ d, ∀ c ∈ [Instr.dbgMemRead, .dbgMemWrite d], exec c s = .next { s with dbg := { s.dbg with status := 3, data := 0 } }) ∧
       (a % 4 = 0 → 0x10000000 ≤ a → a < 0x10200000 → s.screen.old = [] →
        ((s.screenDecide (Who.dev 7) a .load).ok = true → s.mem.latent = [] → s.mem.poisonGranules = [] →
          Answers (exec .dbgMemRead s) (fun u => u.dbg.data = BitVec.ofNat 32 (ofBytes (s.readMem a 4)) ∧ u.dbg.mtag = s.tagAt a ∧
            u.dbg.maddr = s.dbg.maddr + 4 ∧ u.dbg.status = 0 ∧ u.mem = s.mem)) ∧
        (∀ d : BitVec 32, (s.screenDecide (Who.dev 7) a .store).ok = true → Answers (exec (.dbgMemWrite d) s) (fun u =>
          u.readMem a 4 = toBytes 4 d.toNat ∧ u.tagAt a = false ∧ u.dbg.maddr = s.dbg.maddr + 4 ∧ u.dbg.status = 0 ∧
          ∀ k, k < a ∨ a + 4 ≤ k → u.readMem k 1 = s.readMem k 1)))) ∧
      (s.dbg.outFull = false → Answers (exec .dbgMsgRing s) (fun u => u.dbg.outFull = true ∧ u.dbg.status = 0 ∧
        (bit s.events.running 52 = false → s.reg (aTarget 52) ≠ 0 → s.naveRuns = true → ∃ e ∈ u.events.flight, e.n = 52))) ∧
      Answers (exec .dbgMsgAck s) (fun u => u.dbg.inFull = false ∧ u.dbg.status = 0)) ∧
    (s.unitOpen 22 → bit s.dbg.gate 0 = true →
      exec .dbgSwRing s = .next { s with dbg := { s.dbg with inFull := true } } ∧
      exec .dbgSwAck s = .next { s with dbg := { s.dbg with outFull := false } }) ∧
    (s.unitReady 22 = true → bit s.dbg.gate 0 = false → exec .dbgSwRing s = .next s ∧ exec .dbgSwAck s = .next s)
end

