-- ==== Sys2Proof/Laws/State.lean ====
section
/-!
SUPPORT. Sys2Proof/Laws/State.lean: for each named update of the state, the fields that it leaves as they were, so that no
proof unfolds a record update.
-/
namespace Sys2Proof.Machine

@[simp] theorem State.chip_setReg (s : State) (a : Nat) (v : W32) : (s.setReg a v).chip = s.chip := rfl
@[simp] theorem State.straps_setReg (s : State) (a : Nat) (v : W32) : (s.setReg a v).straps = s.straps := rfl
@[simp] theorem State.power_setReg (s : State) (a : Nat) (v : W32) : (s.setReg a v).power = s.power := rfl
@[simp] theorem State.tt_setReg (s : State) (a : Nat) (v : W32) : (s.setReg a v).tt = s.tt := rfl
@[simp] theorem State.latches_setReg (s : State) (a : Nat) (v : W32) : (s.setReg a v).latches = s.latches := rfl
@[simp] theorem State.holds_setReg (s : State) (a : Nat) (v : W32) : (s.setReg a v).holds = s.holds := rfl
@[simp] theorem State.fresh_setReg (s : State) (a : Nat) (v : W32) : (s.setReg a v).fresh = s.fresh := rfl
@[simp] theorem State.wset_setReg (s : State) (a : Nat) (v : W32) : (s.setReg a v).wset = s.wset := rfl
@[simp] theorem State.mem_setReg (s : State) (a : Nat) (v : W32) : (s.setReg a v).mem = s.mem := rfl
@[simp] theorem State.caches_setReg (s : State) (a : Nat) (v : W32) : (s.setReg a v).caches = s.caches := rfl
@[simp] theorem State.screen_setReg (s : State) (a : Nat) (v : W32) : (s.setReg a v).screen = s.screen := rfl
@[simp] theorem State.stalls_setReg (s : State) (a : Nat) (v : W32) : (s.setReg a v).stalls = s.stalls := rfl
@[simp] theorem State.cores_setReg (s : State) (a : Nat) (v : W32) : (s.setReg a v).cores = s.cores := rfl
@[simp] theorem State.events_setReg (s : State) (a : Nat) (v : W32) : (s.setReg a v).events = s.events := rfl
@[simp] theorem State.ring_setReg (s : State) (a : Nat) (v : W32) : (s.setReg a v).ring = s.ring := rfl
@[simp] theorem State.tp_setReg (s : State) (a : Nat) (v : W32) : (s.setReg a v).tp = s.tp := rfl
@[simp] theorem State.cph_setReg (s : State) (a : Nat) (v : W32) : (s.setReg a v).cph = s.cph := rfl
@[simp] theorem State.clr_setReg (s : State) (a : Nat) (v : W32) : (s.setReg a v).clr = s.clr := rfl
@[simp] theorem State.tmr_setReg (s : State) (a : Nat) (v : W32) : (s.setReg a v).tmr = s.tmr := rfl
@[simp] theorem State.dali_setReg (s : State) (a : Nat) (v : W32) : (s.setReg a v).dali = s.dali := rfl
@[simp] theorem State.hatch_setReg (s : State) (a : Nat) (v : W32) : (s.setReg a v).hatch = s.hatch := rfl
@[simp] theorem State.sac_setReg (s : State) (a : Nat) (v : W32) : (s.setReg a v).sac = s.sac := rfl
@[simp] theorem State.lsio_setReg (s : State) (a : Nat) (v : W32) : (s.setReg a v).lsio = s.lsio := rfl
@[simp] theorem State.tap_setReg (s : State) (a : Nat) (v : W32) : (s.setReg a v).tap = s.tap := rfl
@[simp] theorem State.dbg_setReg (s : State) (a : Nat) (v : W32) : (s.setReg a v).dbg = s.dbg := rfl
@[simp] theorem State.pins_setReg (s : State) (a : Nat) (v : W32) : (s.setReg a v).pins = s.pins := rfl
@[simp] theorem State.answer_setReg (s : State) (a : Nat) (v : W32) : (s.setReg a v).answer = s.answer := rfl
@[simp] theorem State.freeCtr_setReg (s : State) (a : Nat) (v : W32) : (s.setReg a v).freeCtr = s.freeCtr := rfl
@[simp] theorem State.pending_setReg (s : State) (a : Nat) (v : W32) : (s.setReg a v).pending = s.pending := rfl

@[simp] theorem State.chip_setPair (s : State) (a : Nat) (v : W64) : (s.setPair a v).chip = s.chip := rfl
@[simp] theorem State.straps_setPair (s : State) (a : Nat) (v : W64) : (s.setPair a v).straps = s.straps := rfl
@[simp] theorem State.power_setPair (s : State) (a : Nat) (v : W64) : (s.setPair a v).power = s.power := rfl
@[simp] theorem State.tt_setPair (s : State) (a : Nat) (v : W64) : (s.setPair a v).tt = s.tt := rfl
@[simp] theorem State.latches_setPair (s : State) (a : Nat) (v : W64) : (s.setPair a v).latches = s.latches := rfl
@[simp] theorem State.holds_setPair (s : State) (a : Nat) (v : W64) : (s.setPair a v).holds = s.holds := rfl
@[simp] theorem State.fresh_setPair (s : State) (a : Nat) (v : W64) : (s.setPair a v).fresh = s.fresh := rfl
@[simp] theorem State.wset_setPair (s : State) (a : Nat) (v : W64) : (s.setPair a v).wset = s.wset := rfl
@[simp] theorem State.mem_setPair (s : State) (a : Nat) (v : W64) : (s.setPair a v).mem = s.mem := rfl
@[simp] theorem State.caches_setPair (s : State) (a : Nat) (v : W64) : (s.setPair a v).caches = s.caches := rfl
@[simp] theorem State.screen_setPair (s : State) (a : Nat) (v : W64) : (s.setPair a v).screen = s.screen := rfl
@[simp] theorem State.stalls_setPair (s : State) (a : Nat) (v : W64) : (s.setPair a v).stalls = s.stalls := rfl
@[simp] theorem State.cores_setPair (s : State) (a : Nat) (v : W64) : (s.setPair a v).cores = s.cores := rfl
@[simp] theorem State.events_setPair (s : State) (a : Nat) (v : W64) : (s.setPair a v).events = s.events := rfl
@[simp] theorem State.ring_setPair (s : State) (a : Nat) (v : W64) : (s.setPair a v).ring = s.ring := rfl
@[simp] theorem State.tp_setPair (s : State) (a : Nat) (v : W64) : (s.setPair a v).tp = s.tp := rfl
@[simp] theorem State.cph_setPair (s : State) (a : Nat) (v : W64) : (s.setPair a v).cph = s.cph := rfl
@[simp] theorem State.clr_setPair (s : State) (a : Nat) (v : W64) : (s.setPair a v).clr = s.clr := rfl
@[simp] theorem State.tmr_setPair (s : State) (a : Nat) (v : W64) : (s.setPair a v).tmr = s.tmr := rfl
@[simp] theorem State.dali_setPair (s : State) (a : Nat) (v : W64) : (s.setPair a v).dali = s.dali := rfl
@[simp] theorem State.hatch_setPair (s : State) (a : Nat) (v : W64) : (s.setPair a v).hatch = s.hatch := rfl
@[simp] theorem State.sac_setPair (s : State) (a : Nat) (v : W64) : (s.setPair a v).sac = s.sac := rfl
@[simp] theorem State.lsio_setPair (s : State) (a : Nat) (v : W64) : (s.setPair a v).lsio = s.lsio := rfl
@[simp] theorem State.tap_setPair (s : State) (a : Nat) (v : W64) : (s.setPair a v).tap = s.tap := rfl
@[simp] theorem State.dbg_setPair (s : State) (a : Nat) (v : W64) : (s.setPair a v).dbg = s.dbg := rfl
@[simp] theorem State.pins_setPair (s : State) (a : Nat) (v : W64) : (s.setPair a v).pins = s.pins := rfl
@[simp] theorem State.answer_setPair (s : State) (a : Nat) (v : W64) : (s.setPair a v).answer = s.answer := rfl
@[simp] theorem State.freeCtr_setPair (s : State) (a : Nat) (v : W64) : (s.setPair a v).freeCtr = s.freeCtr := rfl
@[simp] theorem State.pending_setPair (s : State) (a : Nat) (v : W64) : (s.setPair a v).pending = s.pending := rfl

@[simp] theorem State.chip_modReg (s : State) (a : Nat) (f : W32 → W32) : (s.modReg a f).chip = s.chip := rfl
@[simp] theorem State.straps_modReg (s : State) (a : Nat) (f : W32 → W32) : (s.modReg a f).straps = s.straps := rfl
@[simp] theorem State.power_modReg (s : State) (a : Nat) (f : W32 → W32) : (s.modReg a f).power = s.power := rfl
@[simp] theorem State.tt_modReg (s : State) (a : Nat) (f : W32 → W32) : (s.modReg a f).tt = s.tt := rfl
@[simp] theorem State.latches_modReg (s : State) (a : Nat) (f : W32 → W32) : (s.modReg a f).latches = s.latches := rfl
@[simp] theorem State.holds_modReg (s : State) (a : Nat) (f : W32 → W32) : (s.modReg a f).holds = s.holds := rfl
@[simp] theorem State.fresh_modReg (s : State) (a : Nat) (f : W32 → W32) : (s.modReg a f).fresh = s.fresh := rfl
@[simp] theorem State.wset_modReg (s : State) (a : Nat) (f : W32 → W32) : (s.modReg a f).wset = s.wset := rfl
@[simp] theorem State.mem_modReg (s : State) (a : Nat) (f : W32 → W32) : (s.modReg a f).mem = s.mem := rfl
@[simp] theorem State.caches_modReg (s : State) (a : Nat) (f : W32 → W32) : (s.modReg a f).caches = s.caches := rfl
@[simp] theorem State.screen_modReg (s : State) (a : Nat) (f : W32 → W32) : (s.modReg a f).screen = s.screen := rfl
@[simp] theorem State.stalls_modReg (s : State) (a : Nat) (f : W32 → W32) : (s.modReg a f).stalls = s.stalls := rfl
@[simp] theorem State.cores_modReg (s : State) (a : Nat) (f : W32 → W32) : (s.modReg a f).cores = s.cores := rfl
@[simp] theorem State.events_modReg (s : State) (a : Nat) (f : W32 → W32) : (s.modReg a f).events = s.events := rfl
@[simp] theorem State.ring_modReg (s : State) (a : Nat) (f : W32 → W32) : (s.modReg a f).ring = s.ring := rfl
@[simp] theorem State.tp_modReg (s : State) (a : Nat) (f : W32 → W32) : (s.modReg a f).tp = s.tp := rfl
@[simp] theorem State.cph_modReg (s : State) (a : Nat) (f : W32 → W32) : (s.modReg a f).cph = s.cph := rfl
@[simp] theorem State.clr_modReg (s : State) (a : Nat) (f : W32 → W32) : (s.modReg a f).clr = s.clr := rfl
@[simp] theorem State.tmr_modReg (s : State) (a : Nat) (f : W32 → W32) : (s.modReg a f).tmr = s.tmr := rfl
@[simp] theorem State.dali_modReg (s : State) (a : Nat) (f : W32 → W32) : (s.modReg a f).dali = s.dali := rfl
@[simp] theorem State.hatch_modReg (s : State) (a : Nat) (f : W32 → W32) : (s.modReg a f).hatch = s.hatch := rfl
@[simp] theorem State.sac_modReg (s : State) (a : Nat) (f : W32 → W32) : (s.modReg a f).sac = s.sac := rfl
@[simp] theorem State.lsio_modReg (s : State) (a : Nat) (f : W32 → W32) : (s.modReg a f).lsio = s.lsio := rfl
@[simp] theorem State.tap_modReg (s : State) (a : Nat) (f : W32 → W32) : (s.modReg a f).tap = s.tap := rfl
@[simp] theorem State.dbg_modReg (s : State) (a : Nat) (f : W32 → W32) : (s.modReg a f).dbg = s.dbg := rfl
@[simp] theorem State.pins_modReg (s : State) (a : Nat) (f : W32 → W32) : (s.modReg a f).pins = s.pins := rfl
@[simp] theorem State.answer_modReg (s : State) (a : Nat) (f : W32 → W32) : (s.modReg a f).answer = s.answer := rfl
@[simp] theorem State.freeCtr_modReg (s : State) (a : Nat) (f : W32 → W32) : (s.modReg a f).freeCtr = s.freeCtr := rfl
@[simp] theorem State.pending_modReg (s : State) (a : Nat) (f : W32 → W32) : (s.modReg a f).pending = s.pending := rfl

@[simp] theorem State.chip_orReg (s : State) (a : Nat) (m : W32) : (s.orReg a m).chip = s.chip := rfl
@[simp] theorem State.straps_orReg (s : State) (a : Nat) (m : W32) : (s.orReg a m).straps = s.straps := rfl
@[simp] theorem State.power_orReg (s : State) (a : Nat) (m : W32) : (s.orReg a m).power = s.power := rfl
@[simp] theorem State.tt_orReg (s : State) (a : Nat) (m : W32) : (s.orReg a m).tt = s.tt := rfl
@[simp] theorem State.latches_orReg (s : State) (a : Nat) (m : W32) : (s.orReg a m).latches = s.latches := rfl
@[simp] theorem State.holds_orReg (s : State) (a : Nat) (m : W32) : (s.orReg a m).holds = s.holds := rfl
@[simp] theorem State.fresh_orReg (s : State) (a : Nat) (m : W32) : (s.orReg a m).fresh = s.fresh := rfl
@[simp] theorem State.wset_orReg (s : State) (a : Nat) (m : W32) : (s.orReg a m).wset = s.wset := rfl
@[simp] theorem State.mem_orReg (s : State) (a : Nat) (m : W32) : (s.orReg a m).mem = s.mem := rfl
@[simp] theorem State.caches_orReg (s : State) (a : Nat) (m : W32) : (s.orReg a m).caches = s.caches := rfl
@[simp] theorem State.screen_orReg (s : State) (a : Nat) (m : W32) : (s.orReg a m).screen = s.screen := rfl
@[simp] theorem State.stalls_orReg (s : State) (a : Nat) (m : W32) : (s.orReg a m).stalls = s.stalls := rfl
@[simp] theorem State.cores_orReg (s : State) (a : Nat) (m : W32) : (s.orReg a m).cores = s.cores := rfl
@[simp] theorem State.events_orReg (s : State) (a : Nat) (m : W32) : (s.orReg a m).events = s.events := rfl
@[simp] theorem State.ring_orReg (s : State) (a : Nat) (m : W32) : (s.orReg a m).ring = s.ring := rfl
@[simp] theorem State.tp_orReg (s : State) (a : Nat) (m : W32) : (s.orReg a m).tp = s.tp := rfl
@[simp] theorem State.cph_orReg (s : State) (a : Nat) (m : W32) : (s.orReg a m).cph = s.cph := rfl
@[simp] theorem State.clr_orReg (s : State) (a : Nat) (m : W32) : (s.orReg a m).clr = s.clr := rfl
@[simp] theorem State.tmr_orReg (s : State) (a : Nat) (m : W32) : (s.orReg a m).tmr = s.tmr := rfl
@[simp] theorem State.dali_orReg (s : State) (a : Nat) (m : W32) : (s.orReg a m).dali = s.dali := rfl
@[simp] theorem State.hatch_orReg (s : State) (a : Nat) (m : W32) : (s.orReg a m).hatch = s.hatch := rfl
@[simp] theorem State.sac_orReg (s : State) (a : Nat) (m : W32) : (s.orReg a m).sac = s.sac := rfl
@[simp] theorem State.lsio_orReg (s : State) (a : Nat) (m : W32) : (s.orReg a m).lsio = s.lsio := rfl
@[simp] theorem State.tap_orReg (s : State) (a : Nat) (m : W32) : (s.orReg a m).tap = s.tap := rfl
@[simp] theorem State.dbg_orReg (s : State) (a : Nat) (m : W32) : (s.orReg a m).dbg = s.dbg := rfl
@[simp] theorem State.pins_orReg (s : State) (a : Nat) (m : W32) : (s.orReg a m).pins = s.pins := rfl
@[simp] theorem State.answer_orReg (s : State) (a : Nat) (m : W32) : (s.orReg a m).answer = s.answer := rfl
@[simp] theorem State.freeCtr_orReg (s : State) (a : Nat) (m : W32) : (s.orReg a m).freeCtr = s.freeCtr := rfl
@[simp] theorem State.pending_orReg (s : State) (a : Nat) (m : W32) : (s.orReg a m).pending = s.pending := rfl

@[simp] theorem State.chip_clrReg (s : State) (a : Nat) (m : W32) : (s.clrReg a m).chip = s.chip := rfl
@[simp] theorem State.straps_clrReg (s : State) (a : Nat) (m : W32) : (s.clrReg a m).straps = s.straps := rfl
@[simp] theorem State.power_clrReg (s : State) (a : Nat) (m : W32) : (s.clrReg a m).power = s.power := rfl
@[simp] theorem State.tt_clrReg (s : State) (a : Nat) (m : W32) : (s.clrReg a m).tt = s.tt := rfl
@[simp] theorem State.latches_clrReg (s : State) (a : Nat) (m : W32) : (s.clrReg a m).latches = s.latches := rfl
@[simp] theorem State.holds_clrReg (s : State) (a : Nat) (m : W32) : (s.clrReg a m).holds = s.holds := rfl
@[simp] theorem State.fresh_clrReg (s : State) (a : Nat) (m : W32) : (s.clrReg a m).fresh = s.fresh := rfl
@[simp] theorem State.wset_clrReg (s : State) (a : Nat) (m : W32) : (s.clrReg a m).wset = s.wset := rfl
@[simp] theorem State.mem_clrReg (s : State) (a : Nat) (m : W32) : (s.clrReg a m).mem = s.mem := rfl
@[simp] theorem State.caches_clrReg (s : State) (a : Nat) (m : W32) : (s.clrReg a m).caches = s.caches := rfl
@[simp] theorem State.screen_clrReg (s : State) (a : Nat) (m : W32) : (s.clrReg a m).screen = s.screen := rfl
@[simp] theorem State.stalls_clrReg (s : State) (a : Nat) (m : W32) : (s.clrReg a m).stalls = s.stalls := rfl
@[simp] theorem State.cores_clrReg (s : State) (a : Nat) (m : W32) : (s.clrReg a m).cores = s.cores := rfl
@[simp] theorem State.events_clrReg (s : State) (a : Nat) (m : W32) : (s.clrReg a m).events = s.events := rfl
@[simp] theorem State.ring_clrReg (s : State) (a : Nat) (m : W32) : (s.clrReg a m).ring = s.ring := rfl
@[simp] theorem State.tp_clrReg (s : State) (a : Nat) (m : W32) : (s.clrReg a m).tp = s.tp := rfl
@[simp] theorem State.cph_clrReg (s : State) (a : Nat) (m : W32) : (s.clrReg a m).cph = s.cph := rfl
@[simp] theorem State.clr_clrReg (s : State) (a : Nat) (m : W32) : (s.clrReg a m).clr = s.clr := rfl
@[simp] theorem State.tmr_clrReg (s : State) (a : Nat) (m : W32) : (s.clrReg a m).tmr = s.tmr := rfl
@[simp] theorem State.dali_clrReg (s : State) (a : Nat) (m : W32) : (s.clrReg a m).dali = s.dali := rfl
@[simp] theorem State.hatch_clrReg (s : State) (a : Nat) (m : W32) : (s.clrReg a m).hatch = s.hatch := rfl
@[simp] theorem State.sac_clrReg (s : State) (a : Nat) (m : W32) : (s.clrReg a m).sac = s.sac := rfl
@[simp] theorem State.lsio_clrReg (s : State) (a : Nat) (m : W32) : (s.clrReg a m).lsio = s.lsio := rfl
@[simp] theorem State.tap_clrReg (s : State) (a : Nat) (m : W32) : (s.clrReg a m).tap = s.tap := rfl
@[simp] theorem State.dbg_clrReg (s : State) (a : Nat) (m : W32) : (s.clrReg a m).dbg = s.dbg := rfl
@[simp] theorem State.pins_clrReg (s : State) (a : Nat) (m : W32) : (s.clrReg a m).pins = s.pins := rfl
@[simp] theorem State.answer_clrReg (s : State) (a : Nat) (m : W32) : (s.clrReg a m).answer = s.answer := rfl
@[simp] theorem State.freeCtr_clrReg (s : State) (a : Nat) (m : W32) : (s.clrReg a m).freeCtr = s.freeCtr := rfl
@[simp] theorem State.pending_clrReg (s : State) (a : Nat) (m : W32) : (s.clrReg a m).pending = s.pending := rfl

@[simp] theorem State.chip_hwSet (s : State) (a : Nat) (m : W32) : (s.hwSet a m).chip = s.chip := rfl
@[simp] theorem State.straps_hwSet (s : State) (a : Nat) (m : W32) : (s.hwSet a m).straps = s.straps := rfl
@[simp] theorem State.power_hwSet (s : State) (a : Nat) (m : W32) : (s.hwSet a m).power = s.power := rfl
@[simp] theorem State.tt_hwSet (s : State) (a : Nat) (m : W32) : (s.hwSet a m).tt = s.tt := rfl
@[simp] theorem State.latches_hwSet (s : State) (a : Nat) (m : W32) : (s.hwSet a m).latches = s.latches := rfl
@[simp] theorem State.holds_hwSet (s : State) (a : Nat) (m : W32) : (s.hwSet a m).holds = s.holds := rfl
@[simp] theorem State.wset_hwSet (s : State) (a : Nat) (m : W32) : (s.hwSet a m).wset = s.wset := rfl
@[simp] theorem State.mem_hwSet (s : State) (a : Nat) (m : W32) : (s.hwSet a m).mem = s.mem := rfl
@[simp] theorem State.caches_hwSet (s : State) (a : Nat) (m : W32) : (s.hwSet a m).caches = s.caches := rfl
@[simp] theorem State.screen_hwSet (s : State) (a : Nat) (m : W32) : (s.hwSet a m).screen = s.screen := rfl
@[simp] theorem State.stalls_hwSet (s : State) (a : Nat) (m : W32) : (s.hwSet a m).stalls = s.stalls := rfl
@[simp] theorem State.cores_hwSet (s : State) (a : Nat) (m : W32) : (s.hwSet a m).cores = s.cores := rfl
@[simp] theorem State.events_hwSet (s : State) (a : Nat) (m : W32) : (s.hwSet a m).events = s.events := rfl
@[simp] theorem State.ring_hwSet (s : State) (a : Nat) (m : W32) : (s.hwSet a m).ring = s.ring := rfl
@[simp] theorem State.tp_hwSet (s : State) (a : Nat) (m : W32) : (s.hwSet a m).tp = s.tp := rfl
@[simp] theorem State.cph_hwSet (s : State) (a : Nat) (m : W32) : (s.hwSet a m).cph = s.cph := rfl
@[simp] theorem State.clr_hwSet (s : State) (a : Nat) (m : W32) : (s.hwSet a m).clr = s.clr := rfl
@[simp] theorem State.tmr_hwSet (s : State) (a : Nat) (m : W32) : (s.hwSet a m).tmr = s.tmr := rfl
@[simp] theorem State.dali_hwSet (s : State) (a : Nat) (m : W32) : (s.hwSet a m).dali = s.dali := rfl
@[simp] theorem State.hatch_hwSet (s : State) (a : Nat) (m : W32) : (s.hwSet a m).hatch = s.hatch := rfl
@[simp] theorem State.sac_hwSet (s : State) (a : Nat) (m : W32) : (s.hwSet a m).sac = s.sac := rfl
@[simp] theorem State.lsio_hwSet (s : State) (a : Nat) (m : W32) : (s.hwSet a m).lsio = s.lsio := rfl
@[simp] theorem State.tap_hwSet (s : State) (a : Nat) (m : W32) : (s.hwSet a m).tap = s.tap := rfl
@[simp] theorem State.dbg_hwSet (s : State) (a : Nat) (m : W32) : (s.hwSet a m).dbg = s.dbg := rfl
@[simp] theorem State.pins_hwSet (s : State) (a : Nat) (m : W32) : (s.hwSet a m).pins = s.pins := rfl
@[simp] theorem State.answer_hwSet (s : State) (a : Nat) (m : W32) : (s.hwSet a m).answer = s.answer := rfl
@[simp] theorem State.freeCtr_hwSet (s : State) (a : Nat) (m : W32) : (s.hwSet a m).freeCtr = s.freeCtr := rfl
@[simp] theorem State.pending_hwSet (s : State) (a : Nat) (m : W32) : (s.hwSet a m).pending = s.pending := rfl

@[simp] theorem State.regs_hwSet (s : State) (a : Nat) (m : W32) : (s.hwSet a m).regs = (s.orReg a m).regs := rfl

@[simp] theorem State.chip_swSet (s : State) (a : Nat) (m : W32) : (s.swSet a m).chip = s.chip := rfl
@[simp] theorem State.straps_swSet (s : State) (a : Nat) (m : W32) : (s.swSet a m).straps = s.straps := rfl
@[simp] theorem State.power_swSet (s : State) (a : Nat) (m : W32) : (s.swSet a m).power = s.power := rfl
@[simp] theorem State.tt_swSet (s : State) (a : Nat) (m : W32) : (s.swSet a m).tt = s.tt := rfl
@[simp] theorem State.latches_swSet (s : State) (a : Nat) (m : W32) : (s.swSet a m).latches = s.latches := rfl
@[simp] theorem State.holds_swSet (s : State) (a : Nat) (m : W32) : (s.swSet a m).holds = s.holds := rfl
@[simp] theorem State.fresh_swSet (s : State) (a : Nat) (m : W32) : (s.swSet a m).fresh = s.fresh := rfl
@[simp] theorem State.mem_swSet (s : State) (a : Nat) (m : W32) : (s.swSet a m).mem = s.mem := rfl
@[simp] theorem State.caches_swSet (s : State) (a : Nat) (m : W32) : (s.swSet a m).caches = s.caches := rfl
@[simp] theorem State.screen_swSet (s : State) (a : Nat) (m : W32) : (s.swSet a m).screen = s.screen := rfl
@[simp] theorem State.stalls_swSet (s : State) (a : Nat) (m : W32) : (s.swSet a m).stalls = s.stalls := rfl
@[simp] theorem State.cores_swSet (s : State) (a : Nat) (m : W32) : (s.swSet a m).cores = s.cores := rfl
@[simp] theorem State.events_swSet (s : State) (a : Nat) (m : W32) : (s.swSet a m).events = s.events := rfl
@[simp] theorem State.ring_swSet (s : State) (a : Nat) (m : W32) : (s.swSet a m).ring = s.ring := rfl
@[simp] theorem State.tp_swSet (s : State) (a : Nat) (m : W32) : (s.swSet a m).tp = s.tp := rfl
@[simp] theorem State.cph_swSet (s : State) (a : Nat) (m : W32) : (s.swSet a m).cph = s.cph := rfl
@[simp] theorem State.clr_swSet (s : State) (a : Nat) (m : W32) : (s.swSet a m).clr = s.clr := rfl
@[simp] theorem State.tmr_swSet (s : State) (a : Nat) (m : W32) : (s.swSet a m).tmr = s.tmr := rfl
@[simp] theorem State.dali_swSet (s : State) (a : Nat) (m : W32) : (s.swSet a m).dali = s.dali := rfl
@[simp] theorem State.hatch_swSet (s : State) (a : Nat) (m : W32) : (s.swSet a m).hatch = s.hatch := rfl
@[simp] theorem State.sac_swSet (s : State) (a : Nat) (m : W32) : (s.swSet a m).sac = s.sac := rfl
@[simp] theorem State.lsio_swSet (s : State) (a : Nat) (m : W32) : (s.swSet a m).lsio = s.lsio := rfl
@[simp] theorem State.tap_swSet (s : State) (a : Nat) (m : W32) : (s.swSet a m).tap = s.tap := rfl
@[simp] theorem State.dbg_swSet (s : State) (a : Nat) (m : W32) : (s.swSet a m).dbg = s.dbg := rfl
@[simp] theorem State.pins_swSet (s : State) (a : Nat) (m : W32) : (s.swSet a m).pins = s.pins := rfl
@[simp] theorem State.answer_swSet (s : State) (a : Nat) (m : W32) : (s.swSet a m).answer = s.answer := rfl
@[simp] theorem State.freeCtr_swSet (s : State) (a : Nat) (m : W32) : (s.swSet a m).freeCtr = s.freeCtr := rfl
@[simp] theorem State.pending_swSet (s : State) (a : Nat) (m : W32) : (s.swSet a m).pending = s.pending := rfl

@[simp] theorem State.regs_swSet (s : State) (a : Nat) (m : W32) : (s.swSet a m).regs = (s.orReg a m).regs := rfl

@[simp] theorem State.chip_setField (s : State) (a hi lo v : Nat) : (s.setField a hi lo v).chip = s.chip := rfl
@[simp] theorem State.straps_setField (s : State) (a hi lo v : Nat) : (s.setField a hi lo v).straps = s.straps := rfl
@[simp] theorem State.power_setField (s : State) (a hi lo v : Nat) : (s.setField a hi lo v).power = s.power := rfl
@[simp] theorem State.tt_setField (s : State) (a hi lo v : Nat) : (s.setField a hi lo v).tt = s.tt := rfl
@[simp] theorem State.latches_setField (s : State) (a hi lo v : Nat) : (s.setField a hi lo v).latches = s.latches := rfl
@[simp] theorem State.holds_setField (s : State) (a hi lo v : Nat) : (s.setField a hi lo v).holds = s.holds := rfl
@[simp] theorem State.fresh_setField (s : State) (a hi lo v : Nat) : (s.setField a hi lo v).fresh = s.fresh := rfl
@[simp] theorem State.wset_setField (s : State) (a hi lo v : Nat) : (s.setField a hi lo v).wset = s.wset := rfl
@[simp] theorem State.mem_setField (s : State) (a hi lo v : Nat) : (s.setField a hi lo v).mem = s.mem := rfl
@[simp] theorem State.caches_setField (s : State) (a hi lo v : Nat) : (s.setField a hi lo v).caches = s.caches := rfl
@[simp] theorem State.screen_setField (s : State) (a hi lo v : Nat) : (s.setField a hi lo v).screen = s.screen := rfl
@[simp] theorem State.stalls_setField (s : State) (a hi lo v : Nat) : (s.setField a hi lo v).stalls = s.stalls := rfl
@[simp] theorem State.cores_setField (s : State) (a hi lo v : Nat) : (s.setField a hi lo v).cores = s.cores := rfl
@[simp] theorem State.events_setField (s : State) (a hi lo v : Nat) : (s.setField a hi lo v).events = s.events := rfl
@[simp] theorem State.ring_setField (s : State) (a hi lo v : Nat) : (s.setField a hi lo v).ring = s.ring := rfl
@[simp] theorem State.tp_setField (s : State) (a hi lo v : Nat) : (s.setField a hi lo v).tp = s.tp := rfl
@[simp] theorem State.cph_setField (s : State) (a hi lo v : Nat) : (s.setField a hi lo v).cph = s.cph := rfl
@[simp] theorem State.clr_setField (s : State) (a hi lo v : Nat) : (s.setField a hi lo v).clr = s.clr := rfl
@[simp] theorem State.tmr_setField (s : State) (a hi lo v : Nat) : (s.setField a hi lo v).tmr = s.tmr := rfl
@[simp] theorem State.dali_setField (s : State) (a hi lo v : Nat) : (s.setField a hi lo v).dali = s.dali := rfl
@[simp] theorem State.hatch_setField (s : State) (a hi lo v : Nat) : (s.setField a hi lo v).hatch = s.hatch := rfl
@[simp] theorem State.sac_setField (s : State) (a hi lo v : Nat) : (s.setField a hi lo v).sac = s.sac := rfl
@[simp] theorem State.lsio_setField (s : State) (a hi lo v : Nat) : (s.setField a hi lo v).lsio = s.lsio := rfl
@[simp] theorem State.tap_setField (s : State) (a hi lo v : Nat) : (s.setField a hi lo v).tap = s.tap := rfl
@[simp] theorem State.dbg_setField (s : State) (a hi lo v : Nat) : (s.setField a hi lo v).dbg = s.dbg := rfl
@[simp] theorem State.pins_setField (s : State) (a hi lo v : Nat) : (s.setField a hi lo v).pins = s.pins := rfl
@[simp] theorem State.answer_setField (s : State) (a hi lo v : Nat) : (s.setField a hi lo v).answer = s.answer := rfl
@[simp] theorem State.freeCtr_setField (s : State) (a hi lo v : Nat) : (s.setField a hi lo v).freeCtr = s.freeCtr := rfl
@[simp] theorem State.pending_setField (s : State) (a hi lo v : Nat) : (s.setField a hi lo v).pending = s.pending := rfl

@[simp] theorem State.chip_count (s : State) (a n : Nat) : (s.count a n).chip = s.chip := rfl
@[simp] theorem State.straps_count (s : State) (a n : Nat) : (s.count a n).straps = s.straps := rfl
@[simp] theorem State.power_count (s : State) (a n : Nat) : (s.count a n).power = s.power := rfl
@[simp] theorem State.tt_count (s : State) (a n : Nat) : (s.count a n).tt = s.tt := rfl
@[simp] theorem State.latches_count (s : State) (a n : Nat) : (s.count a n).latches = s.latches := rfl
@[simp] theorem State.holds_count (s : State) (a n : Nat) : (s.count a n).holds = s.holds := rfl
@[simp] theorem State.fresh_count (s : State) (a n : Nat) : (s.count a n).fresh = s.fresh := rfl
@[simp] theorem State.wset_count (s : State) (a n : Nat) : (s.count a n).wset = s.wset := rfl
@[simp] theorem State.mem_count (s : State) (a n : Nat) : (s.count a n).mem = s.mem := rfl
@[simp] theorem State.caches_count (s : State) (a n : Nat) : (s.count a n).caches = s.caches := rfl
@[simp] theorem State.screen_count (s : State) (a n : Nat) : (s.count a n).screen = s.screen := rfl
@[simp] theorem State.stalls_count (s : State) (a n : Nat) : (s.count a n).stalls = s.stalls := rfl
@[simp] theorem State.cores_count (s : State) (a n : Nat) : (s.count a n).cores = s.cores := rfl
@[simp] theorem State.events_count (s : State) (a n : Nat) : (s.count a n).events = s.events := rfl
@[simp] theorem State.ring_count (s : State) (a n : Nat) : (s.count a n).ring = s.ring := rfl
@[simp] theorem State.tp_count (s : State) (a n : Nat) : (s.count a n).tp = s.tp := rfl
@[simp] theorem State.cph_count (s : State) (a n : Nat) : (s.count a n).cph = s.cph := rfl
@[simp] theorem State.clr_count (s : State) (a n : Nat) : (s.count a n).clr = s.clr := rfl
@[simp] theorem State.tmr_count (s : State) (a n : Nat) : (s.count a n).tmr = s.tmr := rfl
@[simp] theorem State.dali_count (s : State) (a n : Nat) : (s.count a n).dali = s.dali := rfl
@[simp] theorem State.hatch_count (s : State) (a n : Nat) : (s.count a n).hatch = s.hatch := rfl
@[simp] theorem State.sac_count (s : State) (a n : Nat) : (s.count a n).sac = s.sac := rfl
@[simp] theorem State.lsio_count (s : State) (a n : Nat) : (s.count a n).lsio = s.lsio := rfl
@[simp] theorem State.tap_count (s : State) (a n : Nat) : (s.count a n).tap = s.tap := rfl
@[simp] theorem State.dbg_count (s : State) (a n : Nat) : (s.count a n).dbg = s.dbg := rfl
@[simp] theorem State.pins_count (s : State) (a n : Nat) : (s.count a n).pins = s.pins := rfl
@[simp] theorem State.answer_count (s : State) (a n : Nat) : (s.count a n).answer = s.answer := rfl
@[simp] theorem State.freeCtr_count (s : State) (a n : Nat) : (s.count a n).freeCtr = s.freeCtr := rfl
@[simp] theorem State.pending_count (s : State) (a n : Nat) : (s.count a n).pending = s.pending := rfl

@[simp] theorem State.chip_drawWord (s : State) : (s.drawWord.2).chip = s.chip := rfl
@[simp] theorem State.straps_drawWord (s : State) : (s.drawWord.2).straps = s.straps := rfl
@[simp] theorem State.power_drawWord (s : State) : (s.drawWord.2).power = s.power := rfl
@[simp] theorem State.tt_drawWord (s : State) : (s.drawWord.2).tt = s.tt := rfl
@[simp] theorem State.regs_drawWord (s : State) : (s.drawWord.2).regs = s.regs := rfl
@[simp] theorem State.latches_drawWord (s : State) : (s.drawWord.2).latches = s.latches := rfl
@[simp] theorem State.holds_drawWord (s : State) : (s.drawWord.2).holds = s.holds := rfl
@[simp] theorem State.fresh_drawWord (s : State) : (s.drawWord.2).fresh = s.fresh := rfl
@[simp] theorem State.wset_drawWord (s : State) : (s.drawWord.2).wset = s.wset := rfl
@[simp] theorem State.mem_drawWord (s : State) : (s.drawWord.2).mem = s.mem := rfl
@[simp] theorem State.caches_drawWord (s : State) : (s.drawWord.2).caches = s.caches := rfl
@[simp] theorem State.screen_drawWord (s : State) : (s.drawWord.2).screen = s.screen := rfl
@[simp] theorem State.stalls_drawWord (s : State) : (s.drawWord.2).stalls = s.stalls := rfl
@[simp] theorem State.cores_drawWord (s : State) : (s.drawWord.2).cores = s.cores := rfl
@[simp] theorem State.events_drawWord (s : State) : (s.drawWord.2).events = s.events := rfl
@[simp] theorem State.ring_drawWord (s : State) : (s.drawWord.2).ring = s.ring := rfl
@[simp] theorem State.tp_drawWord (s : State) : (s.drawWord.2).tp = s.tp := rfl
@[simp] theorem State.cph_drawWord (s : State) : (s.drawWord.2).cph = s.cph := rfl
@[simp] theorem State.clr_drawWord (s : State) : (s.drawWord.2).clr = s.clr := rfl
@[simp] theorem State.tmr_drawWord (s : State) : (s.drawWord.2).tmr = s.tmr := rfl
@[simp] theorem State.dali_drawWord (s : State) : (s.drawWord.2).dali = s.dali := rfl
@[simp] theorem State.hatch_drawWord (s : State) : (s.drawWord.2).hatch = s.hatch := rfl
@[simp] theorem State.sac_drawWord (s : State) : (s.drawWord.2).sac = s.sac := rfl
@[simp] theorem State.lsio_drawWord (s : State) : (s.drawWord.2).lsio = s.lsio := rfl
@[simp] theorem State.tap_drawWord (s : State) : (s.drawWord.2).tap = s.tap := rfl
@[simp] theorem State.dbg_drawWord (s : State) : (s.drawWord.2).dbg = s.dbg := rfl
@[simp] theorem State.pins_drawWord (s : State) : (s.drawWord.2).pins = s.pins := rfl
@[simp] theorem State.answer_drawWord (s : State) : (s.drawWord.2).answer = s.answer := rfl
@[simp] theorem State.pending_drawWord (s : State) : (s.drawWord.2).pending = s.pending := rfl

@[simp] theorem State.chip_drawBool (s : State) : (s.drawBool.2).chip = s.chip := rfl
@[simp] theorem State.straps_drawBool (s : State) : (s.drawBool.2).straps = s.straps := rfl
@[simp] theorem State.power_drawBool (s : State) : (s.drawBool.2).power = s.power := rfl
@[simp] theorem State.tt_drawBool (s : State) : (s.drawBool.2).tt = s.tt := rfl
@[simp] theorem State.regs_drawBool (s : State) : (s.drawBool.2).regs = s.regs := rfl
@[simp] theorem State.latches_drawBool (s : State) : (s.drawBool.2).latches = s.latches := rfl
@[simp] theorem State.holds_drawBool (s : State) : (s.drawBool.2).holds = s.holds := rfl
@[simp] theorem State.fresh_drawBool (s : State) : (s.drawBool.2).fresh = s.fresh := rfl
@[simp] theorem State.wset_drawBool (s : State) : (s.drawBool.2).wset = s.wset := rfl
@[simp] theorem State.mem_drawBool (s : State) : (s.drawBool.2).mem = s.mem := rfl
@[simp] theorem State.caches_drawBool (s : State) : (s.drawBool.2).caches = s.caches := rfl
@[simp] theorem State.screen_drawBool (s : State) : (s.drawBool.2).screen = s.screen := rfl
@[simp] theorem State.stalls_drawBool (s : State) : (s.drawBool.2).stalls = s.stalls := rfl
@[simp] theorem State.cores_drawBool (s : State) : (s.drawBool.2).cores = s.cores := rfl
@[simp] theorem State.events_drawBool (s : State) : (s.drawBool.2).events = s.events := rfl
@[simp] theorem State.ring_drawBool (s : State) : (s.drawBool.2).ring = s.ring := rfl
@[simp] theorem State.tp_drawBool (s : State) : (s.drawBool.2).tp = s.tp := rfl
@[simp] theorem State.cph_drawBool (s : State) : (s.drawBool.2).cph = s.cph := rfl
@[simp] theorem State.clr_drawBool (s : State) : (s.drawBool.2).clr = s.clr := rfl
@[simp] theorem State.tmr_drawBool (s : State) : (s.drawBool.2).tmr = s.tmr := rfl
@[simp] theorem State.dali_drawBool (s : State) : (s.drawBool.2).dali = s.dali := rfl
@[simp] theorem State.hatch_drawBool (s : State) : (s.drawBool.2).hatch = s.hatch := rfl
@[simp] theorem State.sac_drawBool (s : State) : (s.drawBool.2).sac = s.sac := rfl
@[simp] theorem State.lsio_drawBool (s : State) : (s.drawBool.2).lsio = s.lsio := rfl
@[simp] theorem State.tap_drawBool (s : State) : (s.drawBool.2).tap = s.tap := rfl
@[simp] theorem State.dbg_drawBool (s : State) : (s.drawBool.2).dbg = s.dbg := rfl
@[simp] theorem State.pins_drawBool (s : State) : (s.drawBool.2).pins = s.pins := rfl
@[simp] theorem State.answer_drawBool (s : State) : (s.drawBool.2).answer = s.answer := rfl
@[simp] theorem State.pending_drawBool (s : State) : (s.drawBool.2).pending = s.pending := rfl

@[simp] theorem State.chip_drawBytes (s : State) (n : Nat) : ((s.drawBytes n).2).chip = s.chip := rfl
@[simp] theorem State.straps_drawBytes (s : State) (n : Nat) : ((s.drawBytes n).2).straps = s.straps := rfl
@[simp] theorem State.power_drawBytes (s : State) (n : Nat) : ((s.drawBytes n).2).power = s.power := rfl
@[simp] theorem State.tt_drawBytes (s : State) (n : Nat) : ((s.drawBytes n).2).tt = s.tt := rfl
@[simp] theorem State.regs_drawBytes (s : State) (n : Nat) : ((s.drawBytes n).2).regs = s.regs := rfl
@[simp] theorem State.latches_drawBytes (s : State) (n : Nat) : ((s.drawBytes n).2).latches = s.latches := rfl
@[simp] theorem State.holds_drawBytes (s : State) (n : Nat) : ((s.drawBytes n).2).holds = s.holds := rfl
@[simp] theorem State.fresh_drawBytes (s : State) (n : Nat) : ((s.drawBytes n).2).fresh = s.fresh := rfl
@[simp] theorem State.wset_drawBytes (s : State) (n : Nat) : ((s.drawBytes n).2).wset = s.wset := rfl
@[simp] theorem State.mem_drawBytes (s : State) (n : Nat) : ((s.drawBytes n).2).mem = s.mem := rfl
@[simp] theorem State.caches_drawBytes (s : State) (n : Nat) : ((s.drawBytes n).2).caches = s.caches := rfl
@[simp] theorem State.screen_drawBytes (s : State) (n : Nat) : ((s.drawBytes n).2).screen = s.screen := rfl
@[simp] theorem State.stalls_drawBytes (s : State) (n : Nat) : ((s.drawBytes n).2).stalls = s.stalls := rfl
@[simp] theorem State.cores_drawBytes (s : State) (n : Nat) : ((s.drawBytes n).2).cores = s.cores := rfl
@[simp] theorem State.events_drawBytes (s : State) (n : Nat) : ((s.drawBytes n).2).events = s.events := rfl
@[simp] theorem State.ring_drawBytes (s : State) (n : Nat) : ((s.drawBytes n).2).ring = s.ring := rfl
@[simp] theorem State.tp_drawBytes (s : State) (n : Nat) : ((s.drawBytes n).2).tp = s.tp := rfl
@[simp] theorem State.cph_drawBytes (s : State) (n : Nat) : ((s.drawBytes n).2).cph = s.cph := rfl
@[simp] theorem State.clr_drawBytes (s : State) (n : Nat) : ((s.drawBytes n).2).clr = s.clr := rfl
@[simp] theorem State.tmr_drawBytes (s : State) (n : Nat) : ((s.drawBytes n).2).tmr = s.tmr := rfl
@[simp] theorem State.dali_drawBytes (s : State) (n : Nat) : ((s.drawBytes n).2).dali = s.dali := rfl
@[simp] theorem State.hatch_drawBytes (s : State) (n : Nat) : ((s.drawBytes n).2).hatch = s.hatch := rfl
@[simp] theorem State.sac_drawBytes (s : State) (n : Nat) : ((s.drawBytes n).2).sac = s.sac := rfl
@[simp] theorem State.lsio_drawBytes (s : State) (n : Nat) : ((s.drawBytes n).2).lsio = s.lsio := rfl
@[simp] theorem State.tap_drawBytes (s : State) (n : Nat) : ((s.drawBytes n).2).tap = s.tap := rfl
@[simp] theorem State.dbg_drawBytes (s : State) (n : Nat) : ((s.drawBytes n).2).dbg = s.dbg := rfl
@[simp] theorem State.pins_drawBytes (s : State) (n : Nat) : ((s.drawBytes n).2).pins = s.pins := rfl
@[simp] theorem State.answer_drawBytes (s : State) (n : Nat) : ((s.drawBytes n).2).answer = s.answer := rfl
@[simp] theorem State.pending_drawBytes (s : State) (n : Nat) : ((s.drawBytes n).2).pending = s.pending := rfl

@[simp] theorem State.chip_writeMem (s : State) (a : Nat) (bs : List Byte) : (s.writeMem a bs).chip = s.chip := rfl
@[simp] theorem State.straps_writeMem (s : State) (a : Nat) (bs : List Byte) : (s.writeMem a bs).straps = s.straps := rfl
@[simp] theorem State.power_writeMem (s : State) (a : Nat) (bs : List Byte) : (s.writeMem a bs).power = s.power := rfl
@[simp] theorem State.tt_writeMem (s : State) (a : Nat) (bs : List Byte) : (s.writeMem a bs).tt = s.tt := rfl
@[simp] theorem State.regs_writeMem (s : State) (a : Nat) (bs : List Byte) : (s.writeMem a bs).regs = s.regs := rfl
@[simp] theorem State.latches_writeMem (s : State) (a : Nat) (bs : List Byte) : (s.writeMem a bs).latches = s.latches := rfl
@[simp] theorem State.holds_writeMem (s : State) (a : Nat) (bs : List Byte) : (s.writeMem a bs).holds = s.holds := rfl
@[simp] theorem State.fresh_writeMem (s : State) (a : Nat) (bs : List Byte) : (s.writeMem a bs).fresh = s.fresh := rfl
@[simp] theorem State.wset_writeMem (s : State) (a : Nat) (bs : List Byte) : (s.writeMem a bs).wset = s.wset := rfl
@[simp] theorem State.caches_writeMem (s : State) (a : Nat) (bs : List Byte) : (s.writeMem a bs).caches = s.caches := rfl
@[simp] theorem State.screen_writeMem (s : State) (a : Nat) (bs : List Byte) : (s.writeMem a bs).screen = s.screen := rfl
@[simp] theorem State.stalls_writeMem (s : State) (a : Nat) (bs : List Byte) : (s.writeMem a bs).stalls = s.stalls := rfl
@[simp] theorem State.cores_writeMem (s : State) (a : Nat) (bs : List Byte) : (s.writeMem a bs).cores = s.cores := rfl
@[simp] theorem State.events_writeMem (s : State) (a : Nat) (bs : List Byte) : (s.writeMem a bs).events = s.events := rfl
@[simp] theorem State.ring_writeMem (s : State) (a : Nat) (bs : List Byte) : (s.writeMem a bs).ring = s.ring := rfl
@[simp] theorem State.tp_writeMem (s : State) (a : Nat) (bs : List Byte) : (s.writeMem a bs).tp = s.tp := rfl
@[simp] theorem State.cph_writeMem (s : State) (a : Nat) (bs : List Byte) : (s.writeMem a bs).cph = s.cph := rfl
@[simp] theorem State.clr_writeMem (s : State) (a : Nat) (bs : List Byte) : (s.writeMem a bs).clr = s.clr := rfl
@[simp] theorem State.tmr_writeMem (s : State) (a : Nat) (bs : List Byte) : (s.writeMem a bs).tmr = s.tmr := rfl
@[simp] theorem State.dali_writeMem (s : State) (a : Nat) (bs : List Byte) : (s.writeMem a bs).dali = s.dali := rfl
@[simp] theorem State.hatch_writeMem (s : State) (a : Nat) (bs : List Byte) : (s.writeMem a bs).hatch = s.hatch := rfl
@[simp] theorem State.sac_writeMem (s : State) (a : Nat) (bs : List Byte) : (s.writeMem a bs).sac = s.sac := rfl
@[simp] theorem State.lsio_writeMem (s : State) (a : Nat) (bs : List Byte) : (s.writeMem a bs).lsio = s.lsio := rfl
@[simp] theorem State.tap_writeMem (s : State) (a : Nat) (bs : List Byte) : (s.writeMem a bs).tap = s.tap := rfl
@[simp] theorem State.dbg_writeMem (s : State) (a : Nat) (bs : List Byte) : (s.writeMem a bs).dbg = s.dbg := rfl
@[simp] theorem State.pins_writeMem (s : State) (a : Nat) (bs : List Byte) : (s.writeMem a bs).pins = s.pins := rfl
@[simp] theorem State.answer_writeMem (s : State) (a : Nat) (bs : List Byte) : (s.writeMem a bs).answer = s.answer := rfl
@[simp] theorem State.freeCtr_writeMem (s : State) (a : Nat) (bs : List Byte) : (s.writeMem a bs).freeCtr = s.freeCtr := rfl
@[simp] theorem State.pending_writeMem (s : State) (a : Nat) (bs : List Byte) : (s.writeMem a bs).pending = s.pending := rfl

@[simp] theorem State.chip_clearMem (s : State) (lo hi : Nat) : (s.clearMem lo hi).chip = s.chip := rfl
@[simp] theorem State.straps_clearMem (s : State) (lo hi : Nat) : (s.clearMem lo hi).straps = s.straps := rfl
@[simp] theorem State.power_clearMem (s : State) (lo hi : Nat) : (s.clearMem lo hi).power = s.power := rfl
@[simp] theorem State.tt_clearMem (s : State) (lo hi : Nat) : (s.clearMem lo hi).tt = s.tt := rfl
@[simp] theorem State.regs_clearMem (s : State) (lo hi : Nat) : (s.clearMem lo hi).regs = s.regs := rfl
@[simp] theorem State.latches_clearMem (s : State) (lo hi : Nat) : (s.clearMem lo hi).latches = s.latches := rfl
@[simp] theorem State.holds_clearMem (s : State) (lo hi : Nat) : (s.clearMem lo hi).holds = s.holds := rfl
@[simp] theorem State.fresh_clearMem (s : State) (lo hi : Nat) : (s.clearMem lo hi).fresh = s.fresh := rfl
@[simp] theorem State.wset_clearMem (s : State) (lo hi : Nat) : (s.clearMem lo hi).wset = s.wset := rfl
@[simp] theorem State.caches_clearMem (s : State) (lo hi : Nat) : (s.clearMem lo hi).caches = s.caches := rfl
@[simp] theorem State.screen_clearMem (s : State) (lo hi : Nat) : (s.clearMem lo hi).screen = s.screen := rfl
@[simp] theorem State.stalls_clearMem (s : State) (lo hi : Nat) : (s.clearMem lo hi).stalls = s.stalls := rfl
@[simp] theorem State.cores_clearMem (s : State) (lo hi : Nat) : (s.clearMem lo hi).cores = s.cores := rfl
@[simp] theorem State.events_clearMem (s : State) (lo hi : Nat) : (s.clearMem lo hi).events = s.events := rfl
@[simp] theorem State.ring_clearMem (s : State) (lo hi : Nat) : (s.clearMem lo hi).ring = s.ring := rfl
@[simp] theorem State.tp_clearMem (s : State) (lo hi : Nat) : (s.clearMem lo hi).tp = s.tp := rfl
@[simp] theorem State.cph_clearMem (s : State) (lo hi : Nat) : (s.clearMem lo hi).cph = s.cph := rfl
@[simp] theorem State.clr_clearMem (s : State) (lo hi : Nat) : (s.clearMem lo hi).clr = s.clr := rfl
@[simp] theorem State.tmr_clearMem (s : State) (lo hi : Nat) : (s.clearMem lo hi).tmr = s.tmr := rfl
@[simp] theorem State.dali_clearMem (s : State) (lo hi : Nat) : (s.clearMem lo hi).dali = s.dali := rfl
@[simp] theorem State.hatch_clearMem (s : State) (lo hi : Nat) : (s.clearMem lo hi).hatch = s.hatch := rfl
@[simp] theorem State.sac_clearMem (s : State) (lo hi : Nat) : (s.clearMem lo hi).sac = s.sac := rfl
@[simp] theorem State.lsio_clearMem (s : State) (lo hi : Nat) : (s.clearMem lo hi).lsio = s.lsio := rfl
@[simp] theorem State.tap_clearMem (s : State) (lo hi : Nat) : (s.clearMem lo hi).tap = s.tap := rfl
@[simp] theorem State.dbg_clearMem (s : State) (lo hi : Nat) : (s.clearMem lo hi).dbg = s.dbg := rfl
@[simp] theorem State.pins_clearMem (s : State) (lo hi : Nat) : (s.clearMem lo hi).pins = s.pins := rfl
@[simp] theorem State.answer_clearMem (s : State) (lo hi : Nat) : (s.clearMem lo hi).answer = s.answer := rfl
@[simp] theorem State.freeCtr_clearMem (s : State) (lo hi : Nat) : (s.clearMem lo hi).freeCtr = s.freeCtr := rfl
@[simp] theorem State.pending_clearMem (s : State) (lo hi : Nat) : (s.clearMem lo hi).pending = s.pending := rfl

@[simp] theorem State.chip_setTag (s : State) (a : Nat) (t : Bool) : (s.setTag a t).chip = s.chip := rfl
@[simp] theorem State.straps_setTag (s : State) (a : Nat) (t : Bool) : (s.setTag a t).straps = s.straps := rfl
@[simp] theorem State.power_setTag (s : State) (a : Nat) (t : Bool) : (s.setTag a t).power = s.power := rfl
@[simp] theorem State.tt_setTag (s : State) (a : Nat) (t : Bool) : (s.setTag a t).tt = s.tt := rfl
@[simp] theorem State.regs_setTag (s : State) (a : Nat) (t : Bool) : (s.setTag a t).regs = s.regs := rfl
@[simp] theorem State.latches_setTag (s : State) (a : Nat) (t : Bool) : (s.setTag a t).latches = s.latches := rfl
@[simp] theorem State.holds_setTag (s : State) (a : Nat) (t : Bool) : (s.setTag a t).holds = s.holds := rfl
@[simp] theorem State.fresh_setTag (s : State) (a : Nat) (t : Bool) : (s.setTag a t).fresh = s.fresh := rfl
@[simp] theorem State.wset_setTag (s : State) (a : Nat) (t : Bool) : (s.setTag a t).wset = s.wset := rfl
@[simp] theorem State.caches_setTag (s : State) (a : Nat) (t : Bool) : (s.setTag a t).caches = s.caches := rfl
@[simp] theorem State.screen_setTag (s : State) (a : Nat) (t : Bool) : (s.setTag a t).screen = s.screen := rfl
@[simp] theorem State.stalls_setTag (s : State) (a : Nat) (t : Bool) : (s.setTag a t).stalls = s.stalls := rfl
@[simp] theorem State.cores_setTag (s : State) (a : Nat) (t : Bool) : (s.setTag a t).cores = s.cores := rfl
@[simp] theorem State.events_setTag (s : State) (a : Nat) (t : Bool) : (s.setTag a t).events = s.events := rfl
@[simp] theorem State.ring_setTag (s : State) (a : Nat) (t : Bool) : (s.setTag a t).ring = s.ring := rfl
@[simp] theorem State.tp_setTag (s : State) (a : Nat) (t : Bool) : (s.setTag a t).tp = s.tp := rfl
@[simp] theorem State.cph_setTag (s : State) (a : Nat) (t : Bool) : (s.setTag a t).cph = s.cph := rfl
@[simp] theorem State.clr_setTag (s : State) (a : Nat) (t : Bool) : (s.setTag a t).clr = s.clr := rfl
@[simp] theorem State.tmr_setTag (s : State) (a : Nat) (t : Bool) : (s.setTag a t).tmr = s.tmr := rfl
@[simp] theorem State.dali_setTag (s : State) (a : Nat) (t : Bool) : (s.setTag a t).dali = s.dali := rfl
@[simp] theorem State.hatch_setTag (s : State) (a : Nat) (t : Bool) : (s.setTag a t).hatch = s.hatch := rfl
@[simp] theorem State.sac_setTag (s : State) (a : Nat) (t : Bool) : (s.setTag a t).sac = s.sac := rfl
@[simp] theorem State.lsio_setTag (s : State) (a : Nat) (t : Bool) : (s.setTag a t).lsio = s.lsio := rfl
@[simp] theorem State.tap_setTag (s : State) (a : Nat) (t : Bool) : (s.setTag a t).tap = s.tap := rfl
@[simp] theorem State.dbg_setTag (s : State) (a : Nat) (t : Bool) : (s.setTag a t).dbg = s.dbg := rfl
@[simp] theorem State.pins_setTag (s : State) (a : Nat) (t : Bool) : (s.setTag a t).pins = s.pins := rfl
@[simp] theorem State.answer_setTag (s : State) (a : Nat) (t : Bool) : (s.setTag a t).answer = s.answer := rfl
@[simp] theorem State.freeCtr_setTag (s : State) (a : Nat) (t : Bool) : (s.setTag a t).freeCtr = s.freeCtr := rfl
@[simp] theorem State.pending_setTag (s : State) (a : Nat) (t : Bool) : (s.setTag a t).pending = s.pending := rfl

@[simp] theorem State.chip_clearTags (s : State) (a n : Nat) : (s.clearTags a n).chip = s.chip := rfl
@[simp] theorem State.straps_clearTags (s : State) (a n : Nat) : (s.clearTags a n).straps = s.straps := rfl
@[simp] theorem State.power_clearTags (s : State) (a n : Nat) : (s.clearTags a n).power = s.power := rfl
@[simp] theorem State.tt_clearTags (s : State) (a n : Nat) : (s.clearTags a n).tt = s.tt := rfl
@[simp] theorem State.regs_clearTags (s : State) (a n : Nat) : (s.clearTags a n).regs = s.regs := rfl
@[simp] theorem State.latches_clearTags (s : State) (a n : Nat) : (s.clearTags a n).latches = s.latches := rfl
@[simp] theorem State.holds_clearTags (s : State) (a n : Nat) : (s.clearTags a n).holds = s.holds := rfl
@[simp] theorem State.fresh_clearTags (s : State) (a n : Nat) : (s.clearTags a n).fresh = s.fresh := rfl
@[simp] theorem State.wset_clearTags (s : State) (a n : Nat) : (s.clearTags a n).wset = s.wset := rfl
@[simp] theorem State.caches_clearTags (s : State) (a n : Nat) : (s.clearTags a n).caches = s.caches := rfl
@[simp] theorem State.screen_clearTags (s : State) (a n : Nat) : (s.clearTags a n).screen = s.screen := rfl
@[simp] theorem State.stalls_clearTags (s : State) (a n : Nat) : (s.clearTags a n).stalls = s.stalls := rfl
@[simp] theorem State.cores_clearTags (s : State) (a n : Nat) : (s.clearTags a n).cores = s.cores := rfl
@[simp] theorem State.events_clearTags (s : State) (a n : Nat) : (s.clearTags a n).events = s.events := rfl
@[simp] theorem State.ring_clearTags (s : State) (a n : Nat) : (s.clearTags a n).ring = s.ring := rfl
@[simp] theorem State.tp_clearTags (s : State) (a n : Nat) : (s.clearTags a n).tp = s.tp := rfl
@[simp] theorem State.cph_clearTags (s : State) (a n : Nat) : (s.clearTags a n).cph = s.cph := rfl
@[simp] theorem State.clr_clearTags (s : State) (a n : Nat) : (s.clearTags a n).clr = s.clr := rfl
@[simp] theorem State.tmr_clearTags (s : State) (a n : Nat) : (s.clearTags a n).tmr = s.tmr := rfl
@[simp] theorem State.dali_clearTags (s : State) (a n : Nat) : (s.clearTags a n).dali = s.dali := rfl
@[simp] theorem State.hatch_clearTags (s : State) (a n : Nat) : (s.clearTags a n).hatch = s.hatch := rfl
@[simp] theorem State.sac_clearTags (s : State) (a n : Nat) : (s.clearTags a n).sac = s.sac := rfl
@[simp] theorem State.lsio_clearTags (s : State) (a n : Nat) : (s.clearTags a n).lsio = s.lsio := rfl
@[simp] theorem State.tap_clearTags (s : State) (a n : Nat) : (s.clearTags a n).tap = s.tap := rfl
@[simp] theorem State.dbg_clearTags (s : State) (a n : Nat) : (s.clearTags a n).dbg = s.dbg := rfl
@[simp] theorem State.pins_clearTags (s : State) (a n : Nat) : (s.clearTags a n).pins = s.pins := rfl
@[simp] theorem State.answer_clearTags (s : State) (a n : Nat) : (s.clearTags a n).answer = s.answer := rfl
@[simp] theorem State.freeCtr_clearTags (s : State) (a n : Nat) : (s.clearTags a n).freeCtr = s.freeCtr := rfl
@[simp] theorem State.pending_clearTags (s : State) (a n : Nat) : (s.clearTags a n).pending = s.pending := rfl

@[simp] theorem State.chip_winWrite (s : State) (off : Nat) (bs : List Byte) : (s.winWrite off bs).chip = s.chip := rfl
@[simp] theorem State.straps_winWrite (s : State) (off : Nat) (bs : List Byte) : (s.winWrite off bs).straps = s.straps := rfl
@[simp] theorem State.power_winWrite (s : State) (off : Nat) (bs : List Byte) : (s.winWrite off bs).power = s.power := rfl
@[simp] theorem State.tt_winWrite (s : State) (off : Nat) (bs : List Byte) : (s.winWrite off bs).tt = s.tt := rfl
@[simp] theorem State.regs_winWrite (s : State) (off : Nat) (bs : List Byte) : (s.winWrite off bs).regs = s.regs := rfl
@[simp] theorem State.latches_winWrite (s : State) (off : Nat) (bs : List Byte) : (s.winWrite off bs).latches = s.latches := rfl
@[simp] theorem State.holds_winWrite (s : State) (off : Nat) (bs : List Byte) : (s.winWrite off bs).holds = s.holds := rfl
@[simp] theorem State.fresh_winWrite (s : State) (off : Nat) (bs : List Byte) : (s.winWrite off bs).fresh = s.fresh := rfl
@[simp] theorem State.wset_winWrite (s : State) (off : Nat) (bs : List Byte) : (s.winWrite off bs).wset = s.wset := rfl
@[simp] theorem State.caches_winWrite (s : State) (off : Nat) (bs : List Byte) : (s.winWrite off bs).caches = s.caches := rfl
@[simp] theorem State.screen_winWrite (s : State) (off : Nat) (bs : List Byte) : (s.winWrite off bs).screen = s.screen := rfl
@[simp] theorem State.stalls_winWrite (s : State) (off : Nat) (bs : List Byte) : (s.winWrite off bs).stalls = s.stalls := rfl
@[simp] theorem State.cores_winWrite (s : State) (off : Nat) (bs : List Byte) : (s.winWrite off bs).cores = s.cores := rfl
@[simp] theorem State.events_winWrite (s : State) (off : Nat) (bs : List Byte) : (s.winWrite off bs).events = s.events := rfl
@[simp] theorem State.ring_winWrite (s : State) (off : Nat) (bs : List Byte) : (s.winWrite off bs).ring = s.ring := rfl
@[simp] theorem State.tp_winWrite (s : State) (off : Nat) (bs : List Byte) : (s.winWrite off bs).tp = s.tp := rfl
@[simp] theorem State.cph_winWrite (s : State) (off : Nat) (bs : List Byte) : (s.winWrite off bs).cph = s.cph := rfl
@[simp] theorem State.clr_winWrite (s : State) (off : Nat) (bs : List Byte) : (s.winWrite off bs).clr = s.clr := rfl
@[simp] theorem State.tmr_winWrite (s : State) (off : Nat) (bs : List Byte) : (s.winWrite off bs).tmr = s.tmr := rfl
@[simp] theorem State.dali_winWrite (s : State) (off : Nat) (bs : List Byte) : (s.winWrite off bs).dali = s.dali := rfl
@[simp] theorem State.hatch_winWrite (s : State) (off : Nat) (bs : List Byte) : (s.winWrite off bs).hatch = s.hatch := rfl
@[simp] theorem State.sac_winWrite (s : State) (off : Nat) (bs : List Byte) : (s.winWrite off bs).sac = s.sac := rfl
@[simp] theorem State.lsio_winWrite (s : State) (off : Nat) (bs : List Byte) : (s.winWrite off bs).lsio = s.lsio := rfl
@[simp] theorem State.tap_winWrite (s : State) (off : Nat) (bs : List Byte) : (s.winWrite off bs).tap = s.tap := rfl
@[simp] theorem State.dbg_winWrite (s : State) (off : Nat) (bs : List Byte) : (s.winWrite off bs).dbg = s.dbg := rfl
@[simp] theorem State.pins_winWrite (s : State) (off : Nat) (bs : List Byte) : (s.winWrite off bs).pins = s.pins := rfl
@[simp] theorem State.answer_winWrite (s : State) (off : Nat) (bs : List Byte) : (s.winWrite off bs).answer = s.answer := rfl
@[simp] theorem State.freeCtr_winWrite (s : State) (off : Nat) (bs : List Byte) : (s.winWrite off bs).freeCtr = s.freeCtr := rfl
@[simp] theorem State.pending_winWrite (s : State) (off : Nat) (bs : List Byte) : (s.winWrite off bs).pending = s.pending := rfl

@[simp] theorem State.chip_modStall (s : State) (i : Nat) (f : Stall → Stall) : (s.modStall i f).chip = s.chip := rfl
@[simp] theorem State.straps_modStall (s : State) (i : Nat) (f : Stall → Stall) : (s.modStall i f).straps = s.straps := rfl
@[simp] theorem State.power_modStall (s : State) (i : Nat) (f : Stall → Stall) : (s.modStall i f).power = s.power := rfl
@[simp] theorem State.tt_modStall (s : State) (i : Nat) (f : Stall → Stall) : (s.modStall i f).tt = s.tt := rfl
@[simp] theorem State.regs_modStall (s : State) (i : Nat) (f : Stall → Stall) : (s.modStall i f).regs = s.regs := rfl
@[simp] theorem State.latches_modStall (s : State) (i : Nat) (f : Stall → Stall) : (s.modStall i f).latches = s.latches := rfl
@[simp] theorem State.holds_modStall (s : State) (i : Nat) (f : Stall → Stall) : (s.modStall i f).holds = s.holds := rfl
@[simp] theorem State.fresh_modStall (s : State) (i : Nat) (f : Stall → Stall) : (s.modStall i f).fresh = s.fresh := rfl
@[simp] theorem State.wset_modStall (s : State) (i : Nat) (f : Stall → Stall) : (s.modStall i f).wset = s.wset := rfl
@[simp] theorem State.mem_modStall (s : State) (i : Nat) (f : Stall → Stall) : (s.modStall i f).mem = s.mem := rfl
@[simp] theorem State.caches_modStall (s : State) (i : Nat) (f : Stall → Stall) : (s.modStall i f).caches = s.caches := rfl
@[simp] theorem State.screen_modStall (s : State) (i : Nat) (f : Stall → Stall) : (s.modStall i f).screen = s.screen := rfl
@[simp] theorem State.cores_modStall (s : State) (i : Nat) (f : Stall → Stall) : (s.modStall i f).cores = s.cores := rfl
@[simp] theorem State.events_modStall (s : State) (i : Nat) (f : Stall → Stall) : (s.modStall i f).events = s.events := rfl
@[simp] theorem State.ring_modStall (s : State) (i : Nat) (f : Stall → Stall) : (s.modStall i f).ring = s.ring := rfl
@[simp] theorem State.tp_modStall (s : State) (i : Nat) (f : Stall → Stall) : (s.modStall i f).tp = s.tp := rfl
@[simp] theorem State.cph_modStall (s : State) (i : Nat) (f : Stall → Stall) : (s.modStall i f).cph = s.cph := rfl
@[simp] theorem State.clr_modStall (s : State) (i : Nat) (f : Stall → Stall) : (s.modStall i f).clr = s.clr := rfl
@[simp] theorem State.tmr_modStall (s : State) (i : Nat) (f : Stall → Stall) : (s.modStall i f).tmr = s.tmr := rfl
@[simp] theorem State.dali_modStall (s : State) (i : Nat) (f : Stall → Stall) : (s.modStall i f).dali = s.dali := rfl
@[simp] theorem State.hatch_modStall (s : State) (i : Nat) (f : Stall → Stall) : (s.modStall i f).hatch = s.hatch := rfl
@[simp] theorem State.sac_modStall (s : State) (i : Nat) (f : Stall → Stall) : (s.modStall i f).sac = s.sac := rfl
@[simp] theorem State.lsio_modStall (s : State) (i : Nat) (f : Stall → Stall) : (s.modStall i f).lsio = s.lsio := rfl
@[simp] theorem State.tap_modStall (s : State) (i : Nat) (f : Stall → Stall) : (s.modStall i f).tap = s.tap := rfl
@[simp] theorem State.dbg_modStall (s : State) (i : Nat) (f : Stall → Stall) : (s.modStall i f).dbg = s.dbg := rfl
@[simp] theorem State.pins_modStall (s : State) (i : Nat) (f : Stall → Stall) : (s.modStall i f).pins = s.pins := rfl
@[simp] theorem State.answer_modStall (s : State) (i : Nat) (f : Stall → Stall) : (s.modStall i f).answer = s.answer := rfl
@[simp] theorem State.freeCtr_modStall (s : State) (i : Nat) (f : Stall → Stall) : (s.modStall i f).freeCtr = s.freeCtr := rfl
@[simp] theorem State.pending_modStall (s : State) (i : Nat) (f : Stall → Stall) : (s.modStall i f).pending = s.pending := rfl

@[simp] theorem State.chip_modCore (s : State) (c : Nat) (f : Core → Core) : (s.modCore c f).chip = s.chip := rfl
@[simp] theorem State.straps_modCore (s : State) (c : Nat) (f : Core → Core) : (s.modCore c f).straps = s.straps := rfl
@[simp] theorem State.power_modCore (s : State) (c : Nat) (f : Core → Core) : (s.modCore c f).power = s.power := rfl
@[simp] theorem State.tt_modCore (s : State) (c : Nat) (f : Core → Core) : (s.modCore c f).tt = s.tt := rfl
@[simp] theorem State.regs_modCore (s : State) (c : Nat) (f : Core → Core) : (s.modCore c f).regs = s.regs := rfl
@[simp] theorem State.latches_modCore (s : State) (c : Nat) (f : Core → Core) : (s.modCore c f).latches = s.latches := rfl
@[simp] theorem State.holds_modCore (s : State) (c : Nat) (f : Core → Core) : (s.modCore c f).holds = s.holds := rfl
@[simp] theorem State.fresh_modCore (s : State) (c : Nat) (f : Core → Core) : (s.modCore c f).fresh = s.fresh := rfl
@[simp] theorem State.wset_modCore (s : State) (c : Nat) (f : Core → Core) : (s.modCore c f).wset = s.wset := rfl
@[simp] theorem State.mem_modCore (s : State) (c : Nat) (f : Core → Core) : (s.modCore c f).mem = s.mem := rfl
@[simp] theorem State.caches_modCore (s : State) (c : Nat) (f : Core → Core) : (s.modCore c f).caches = s.caches := rfl
@[simp] theorem State.screen_modCore (s : State) (c : Nat) (f : Core → Core) : (s.modCore c f).screen = s.screen := rfl
@[simp] theorem State.stalls_modCore (s : State) (c : Nat) (f : Core → Core) : (s.modCore c f).stalls = s.stalls := rfl
@[simp] theorem State.events_modCore (s : State) (c : Nat) (f : Core → Core) : (s.modCore c f).events = s.events := rfl
@[simp] theorem State.ring_modCore (s : State) (c : Nat) (f : Core → Core) : (s.modCore c f).ring = s.ring := rfl
@[simp] theorem State.tp_modCore (s : State) (c : Nat) (f : Core → Core) : (s.modCore c f).tp = s.tp := rfl
@[simp] theorem State.cph_modCore (s : State) (c : Nat) (f : Core → Core) : (s.modCore c f).cph = s.cph := rfl
@[simp] theorem State.clr_modCore (s : State) (c : Nat) (f : Core → Core) : (s.modCore c f).clr = s.clr := rfl
@[simp] theorem State.tmr_modCore (s : State) (c : Nat) (f : Core → Core) : (s.modCore c f).tmr = s.tmr := rfl
@[simp] theorem State.dali_modCore (s : State) (c : Nat) (f : Core → Core) : (s.modCore c f).dali = s.dali := rfl
@[simp] theorem State.hatch_modCore (s : State) (c : Nat) (f : Core → Core) : (s.modCore c f).hatch = s.hatch := rfl
@[simp] theorem State.sac_modCore (s : State) (c : Nat) (f : Core → Core) : (s.modCore c f).sac = s.sac := rfl
@[simp] theorem State.lsio_modCore (s : State) (c : Nat) (f : Core → Core) : (s.modCore c f).lsio = s.lsio := rfl
@[simp] theorem State.tap_modCore (s : State) (c : Nat) (f : Core → Core) : (s.modCore c f).tap = s.tap := rfl
@[simp] theorem State.dbg_modCore (s : State) (c : Nat) (f : Core → Core) : (s.modCore c f).dbg = s.dbg := rfl
@[simp] theorem State.pins_modCore (s : State) (c : Nat) (f : Core → Core) : (s.modCore c f).pins = s.pins := rfl
@[simp] theorem State.answer_modCore (s : State) (c : Nat) (f : Core → Core) : (s.modCore c f).answer = s.answer := rfl
@[simp] theorem State.freeCtr_modCore (s : State) (c : Nat) (f : Core → Core) : (s.modCore c f).freeCtr = s.freeCtr := rfl
@[simp] theorem State.pending_modCore (s : State) (c : Nat) (f : Core → Core) : (s.modCore c f).pending = s.pending := rfl

@[simp] theorem State.chip_wr (s : State) (i : Nat) (r : Reg) (v : Capv) : (s.wr i r v).chip = s.chip := rfl
@[simp] theorem State.straps_wr (s : State) (i : Nat) (r : Reg) (v : Capv) : (s.wr i r v).straps = s.straps := rfl
@[simp] theorem State.power_wr (s : State) (i : Nat) (r : Reg) (v : Capv) : (s.wr i r v).power = s.power := rfl
@[simp] theorem State.tt_wr (s : State) (i : Nat) (r : Reg) (v : Capv) : (s.wr i r v).tt = s.tt := rfl
@[simp] theorem State.regs_wr (s : State) (i : Nat) (r : Reg) (v : Capv) : (s.wr i r v).regs = s.regs := rfl
@[simp] theorem State.latches_wr (s : State) (i : Nat) (r : Reg) (v : Capv) : (s.wr i r v).latches = s.latches := rfl
@[simp] theorem State.holds_wr (s : State) (i : Nat) (r : Reg) (v : Capv) : (s.wr i r v).holds = s.holds := rfl
@[simp] theorem State.fresh_wr (s : State) (i : Nat) (r : Reg) (v : Capv) : (s.wr i r v).fresh = s.fresh := rfl
@[simp] theorem State.wset_wr (s : State) (i : Nat) (r : Reg) (v : Capv) : (s.wr i r v).wset = s.wset := rfl
@[simp] theorem State.mem_wr (s : State) (i : Nat) (r : Reg) (v : Capv) : (s.wr i r v).mem = s.mem := rfl
@[simp] theorem State.caches_wr (s : State) (i : Nat) (r : Reg) (v : Capv) : (s.wr i r v).caches = s.caches := rfl
@[simp] theorem State.screen_wr (s : State) (i : Nat) (r : Reg) (v : Capv) : (s.wr i r v).screen = s.screen := rfl
@[simp] theorem State.cores_wr (s : State) (i : Nat) (r : Reg) (v : Capv) : (s.wr i r v).cores = s.cores := rfl
@[simp] theorem State.events_wr (s : State) (i : Nat) (r : Reg) (v : Capv) : (s.wr i r v).events = s.events := rfl
@[simp] theorem State.ring_wr (s : State) (i : Nat) (r : Reg) (v : Capv) : (s.wr i r v).ring = s.ring := rfl
@[simp] theorem State.tp_wr (s : State) (i : Nat) (r : Reg) (v : Capv) : (s.wr i r v).tp = s.tp := rfl
@[simp] theorem State.cph_wr (s : State) (i : Nat) (r : Reg) (v : Capv) : (s.wr i r v).cph = s.cph := rfl
@[simp] theorem State.clr_wr (s : State) (i : Nat) (r : Reg) (v : Capv) : (s.wr i r v).clr = s.clr := rfl
@[simp] theorem State.tmr_wr (s : State) (i : Nat) (r : Reg) (v : Capv) : (s.wr i r v).tmr = s.tmr := rfl
@[simp] theorem State.dali_wr (s : State) (i : Nat) (r : Reg) (v : Capv) : (s.wr i r v).dali = s.dali := rfl
@[simp] theorem State.hatch_wr (s : State) (i : Nat) (r : Reg) (v : Capv) : (s.wr i r v).hatch = s.hatch := rfl
@[simp] theorem State.sac_wr (s : State) (i : Nat) (r : Reg) (v : Capv) : (s.wr i r v).sac = s.sac := rfl
@[simp] theorem State.lsio_wr (s : State) (i : Nat) (r : Reg) (v : Capv) : (s.wr i r v).lsio = s.lsio := rfl
@[simp] theorem State.tap_wr (s : State) (i : Nat) (r : Reg) (v : Capv) : (s.wr i r v).tap = s.tap := rfl
@[simp] theorem State.dbg_wr (s : State) (i : Nat) (r : Reg) (v : Capv) : (s.wr i r v).dbg = s.dbg := rfl
@[simp] theorem State.pins_wr (s : State) (i : Nat) (r : Reg) (v : Capv) : (s.wr i r v).pins = s.pins := rfl
@[simp] theorem State.answer_wr (s : State) (i : Nat) (r : Reg) (v : Capv) : (s.wr i r v).answer = s.answer := rfl
@[simp] theorem State.freeCtr_wr (s : State) (i : Nat) (r : Reg) (v : Capv) : (s.wr i r v).freeCtr = s.freeCtr := rfl
@[simp] theorem State.pending_wr (s : State) (i : Nat) (r : Reg) (v : Capv) : (s.wr i r v).pending = s.pending := rfl

@[simp] theorem State.chip_wrInt (s : State) (i : Nat) (r : Reg) (v : W64) : (s.wrInt i r v).chip = s.chip := rfl
@[simp] theorem State.straps_wrInt (s : State) (i : Nat) (r : Reg) (v : W64) : (s.wrInt i r v).straps = s.straps := rfl
@[simp] theorem State.power_wrInt (s : State) (i : Nat) (r : Reg) (v : W64) : (s.wrInt i r v).power = s.power := rfl
@[simp] theorem State.tt_wrInt (s : State) (i : Nat) (r : Reg) (v : W64) : (s.wrInt i r v).tt = s.tt := rfl
@[simp] theorem State.regs_wrInt (s : State) (i : Nat) (r : Reg) (v : W64) : (s.wrInt i r v).regs = s.regs := rfl
@[simp] theorem State.latches_wrInt (s : State) (i : Nat) (r : Reg) (v : W64) : (s.wrInt i r v).latches = s.latches := rfl
@[simp] theorem State.holds_wrInt (s : State) (i : Nat) (r : Reg) (v : W64) : (s.wrInt i r v).holds = s.holds := rfl
@[simp] theorem State.fresh_wrInt (s : State) (i : Nat) (r : Reg) (v : W64) : (s.wrInt i r v).fresh = s.fresh := rfl
@[simp] theorem State.wset_wrInt (s : State) (i : Nat) (r : Reg) (v : W64) : (s.wrInt i r v).wset = s.wset := rfl
@[simp] theorem State.mem_wrInt (s : State) (i : Nat) (r : Reg) (v : W64) : (s.wrInt i r v).mem = s.mem := rfl
@[simp] theorem State.caches_wrInt (s : State) (i : Nat) (r : Reg) (v : W64) : (s.wrInt i r v).caches = s.caches := rfl
@[simp] theorem State.screen_wrInt (s : State) (i : Nat) (r : Reg) (v : W64) : (s.wrInt i r v).screen = s.screen := rfl
@[simp] theorem State.cores_wrInt (s : State) (i : Nat) (r : Reg) (v : W64) : (s.wrInt i r v).cores = s.cores := rfl
@[simp] theorem State.events_wrInt (s : State) (i : Nat) (r : Reg) (v : W64) : (s.wrInt i r v).events = s.events := rfl
@[simp] theorem State.ring_wrInt (s : State) (i : Nat) (r : Reg) (v : W64) : (s.wrInt i r v).ring = s.ring := rfl
@[simp] theorem State.tp_wrInt (s : State) (i : Nat) (r : Reg) (v : W64) : (s.wrInt i r v).tp = s.tp := rfl
@[simp] theorem State.cph_wrInt (s : State) (i : Nat) (r : Reg) (v : W64) : (s.wrInt i r v).cph = s.cph := rfl
@[simp] theorem State.clr_wrInt (s : State) (i : Nat) (r : Reg) (v : W64) : (s.wrInt i r v).clr = s.clr := rfl
@[simp] theorem State.tmr_wrInt (s : State) (i : Nat) (r : Reg) (v : W64) : (s.wrInt i r v).tmr = s.tmr := rfl
@[simp] theorem State.dali_wrInt (s : State) (i : Nat) (r : Reg) (v : W64) : (s.wrInt i r v).dali = s.dali := rfl
@[simp] theorem State.hatch_wrInt (s : State) (i : Nat) (r : Reg) (v : W64) : (s.wrInt i r v).hatch = s.hatch := rfl
@[simp] theorem State.sac_wrInt (s : State) (i : Nat) (r : Reg) (v : W64) : (s.wrInt i r v).sac = s.sac := rfl
@[simp] theorem State.lsio_wrInt (s : State) (i : Nat) (r : Reg) (v : W64) : (s.wrInt i r v).lsio = s.lsio := rfl
@[simp] theorem State.tap_wrInt (s : State) (i : Nat) (r : Reg) (v : W64) : (s.wrInt i r v).tap = s.tap := rfl
@[simp] theorem State.dbg_wrInt (s : State) (i : Nat) (r : Reg) (v : W64) : (s.wrInt i r v).dbg = s.dbg := rfl
@[simp] theorem State.pins_wrInt (s : State) (i : Nat) (r : Reg) (v : W64) : (s.wrInt i r v).pins = s.pins := rfl
@[simp] theorem State.answer_wrInt (s : State) (i : Nat) (r : Reg) (v : W64) : (s.wrInt i r v).answer = s.answer := rfl
@[simp] theorem State.freeCtr_wrInt (s : State) (i : Nat) (r : Reg) (v : W64) : (s.wrInt i r v).freeCtr = s.freeCtr := rfl
@[simp] theorem State.pending_wrInt (s : State) (i : Nat) (r : Reg) (v : W64) : (s.wrInt i r v).pending = s.pending := rfl

@[simp] theorem State.chip_hwClear (s : State) (a : Nat) (m : W32) : (s.hwClear a m).chip = s.chip := by unfold State.hwClear; dsimp only; split <;> rfl
@[simp] theorem State.straps_hwClear (s : State) (a : Nat) (m : W32) : (s.hwClear a m).straps = s.straps := by unfold State.hwClear; dsimp only; split <;> rfl
@[simp] theorem State.power_hwClear (s : State) (a : Nat) (m : W32) : (s.hwClear a m).power = s.power := by unfold State.hwClear; dsimp only; split <;> rfl
@[simp] theorem State.tt_hwClear (s : State) (a : Nat) (m : W32) : (s.hwClear a m).tt = s.tt := by unfold State.hwClear; dsimp only; split <;> rfl
@[simp] theorem State.latches_hwClear (s : State) (a : Nat) (m : W32) : (s.hwClear a m).latches = s.latches := by unfold State.hwClear; dsimp only; split <;> rfl
@[simp] theorem State.holds_hwClear (s : State) (a : Nat) (m : W32) : (s.hwClear a m).holds = s.holds := by unfold State.hwClear; dsimp only; split <;> rfl
@[simp] theorem State.fresh_hwClear (s : State) (a : Nat) (m : W32) : (s.hwClear a m).fresh = s.fresh := by unfold State.hwClear; dsimp only; split <;> rfl
@[simp] theorem State.wset_hwClear (s : State) (a : Nat) (m : W32) : (s.hwClear a m).wset = s.wset := by unfold State.hwClear; dsimp only; split <;> rfl
@[simp] theorem State.mem_hwClear (s : State) (a : Nat) (m : W32) : (s.hwClear a m).mem = s.mem := by unfold State.hwClear; dsimp only; split <;> rfl
@[simp] theorem State.caches_hwClear (s : State) (a : Nat) (m : W32) : (s.hwClear a m).caches = s.caches := by unfold State.hwClear; dsimp only; split <;> rfl
@[simp] theorem State.screen_hwClear (s : State) (a : Nat) (m : W32) : (s.hwClear a m).screen = s.screen := by unfold State.hwClear; dsimp only; split <;> rfl
@[simp] theorem State.stalls_hwClear (s : State) (a : Nat) (m : W32) : (s.hwClear a m).stalls = s.stalls := by unfold State.hwClear; dsimp only; split <;> rfl
@[simp] theorem State.cores_hwClear (s : State) (a : Nat) (m : W32) : (s.hwClear a m).cores = s.cores := by unfold State.hwClear; dsimp only; split <;> rfl
@[simp] theorem State.events_hwClear (s : State) (a : Nat) (m : W32) : (s.hwClear a m).events = s.events := by unfold State.hwClear; dsimp only; split <;> rfl
@[simp] theorem State.ring_hwClear (s : State) (a : Nat) (m : W32) : (s.hwClear a m).ring = s.ring := by unfold State.hwClear; dsimp only; split <;> rfl
@[simp] theorem State.tp_hwClear (s : State) (a : Nat) (m : W32) : (s.hwClear a m).tp = s.tp := by unfold State.hwClear; dsimp only; split <;> rfl
@[simp] theorem State.cph_hwClear (s : State) (a : Nat) (m : W32) : (s.hwClear a m).cph = s.cph := by unfold State.hwClear; dsimp only; split <;> rfl
@[simp] theorem State.clr_hwClear (s : State) (a : Nat) (m : W32) : (s.hwClear a m).clr = s.clr := by unfold State.hwClear; dsimp only; split <;> rfl
@[simp] theorem State.tmr_hwClear (s : State) (a : Nat) (m : W32) : (s.hwClear a m).tmr = s.tmr := by unfold State.hwClear; dsimp only; split <;> rfl
@[simp] theorem State.dali_hwClear (s : State) (a : Nat) (m : W32) : (s.hwClear a m).dali = s.dali := by unfold State.hwClear; dsimp only; split <;> rfl
@[simp] theorem State.hatch_hwClear (s : State) (a : Nat) (m : W32) : (s.hwClear a m).hatch = s.hatch := by unfold State.hwClear; dsimp only; split <;> rfl
@[simp] theorem State.sac_hwClear (s : State) (a : Nat) (m : W32) : (s.hwClear a m).sac = s.sac := by unfold State.hwClear; dsimp only; split <;> rfl
@[simp] theorem State.lsio_hwClear (s : State) (a : Nat) (m : W32) : (s.hwClear a m).lsio = s.lsio := by unfold State.hwClear; dsimp only; split <;> rfl
@[simp] theorem State.tap_hwClear (s : State) (a : Nat) (m : W32) : (s.hwClear a m).tap = s.tap := by unfold State.hwClear; dsimp only; split <;> rfl
@[simp] theorem State.dbg_hwClear (s : State) (a : Nat) (m : W32) : (s.hwClear a m).dbg = s.dbg := by unfold State.hwClear; dsimp only; split <;> rfl
@[simp] theorem State.pins_hwClear (s : State) (a : Nat) (m : W32) : (s.hwClear a m).pins = s.pins := by unfold State.hwClear; dsimp only; split <;> rfl
@[simp] theorem State.answer_hwClear (s : State) (a : Nat) (m : W32) : (s.hwClear a m).answer = s.answer := by unfold State.hwClear; dsimp only; split <;> rfl
@[simp] theorem State.pending_hwClear (s : State) (a : Nat) (m : W32) : (s.hwClear a m).pending = s.pending := by unfold State.hwClear; dsimp only; split <;> rfl

end Sys2Proof.Machine
end

