-- ==== Sys2Proof/Laws/Vectors.lean ====
section
/-!
SUPPORT. Sys2Proof/Laws/Vectors.lean: reading after writing in vectors, sparse stores and the register file.
-/
set_option linter.unusedSimpArgs false

namespace Sys2Proof.Machine

/-! ## Vectors -/

theorem vget_eq {α : Type} {n : Nat} (v : Vector α n) (i : Nat) (d : α) : vget v i d = if h : i < n then v[i] else d := by
  unfold vget; simp only [Vector.getD]; split <;> simp [*]

theorem vget_vset {α : Type} {n : Nat} (v : Vector α n) (i j : Nat) (x d : α) :
    vget (vset v i x) j d = if i = j ∧ j < n then x else vget v j d := by
  simp only [vget_eq, vset]
  by_cases hi : i < n <;> by_cases hj : j < n <;> by_cases e : i = j <;> simp [hi, hj, e, Vector.getElem_set]

theorem vget_vmod {α : Type} {n : Nat} (v : Vector α n) (i j : Nat) (f : α → α) (d : α) :
    vget (vmod v i f) j d = if i = j ∧ j < n then f (vget v j d) else vget v j d := by
  simp only [vget_eq, vmod]
  by_cases hi : i < n <;> by_cases hj : j < n <;> by_cases e : i = j <;> simp [hi, hj, e, Vector.getElem_set]

@[simp] theorem vget_vset_same {α : Type} {n : Nat} (v : Vector α n) (i : Nat) (x d : α) (h : i < n) :
    vget (vset v i x) i d = x := by simp [vget_vset, h]
theorem vget_vset_ne {α : Type} {n : Nat} (v : Vector α n) (i j : Nat) (x d : α) (h : i ≠ j) :
    vget (vset v i x) j d = vget v j d := by simp [vget_vset, h]

/-! ## Sparse stores -/

@[simp] theorem AMap.get?_set {α : Type} (m : AMap α) (i j : Nat) (x : α) :
    AMap.get? (AMap.set m i x) j = if j = i then some x else AMap.get? m j := by
  induction m with
  | nil => simp [AMap.set, AMap.get?]
  | cons p m ih =>
    obtain ⟨k, v⟩ := p
    simp only [AMap.set]
    split
    · simp only [AMap.get?]
    · split
      · rename_i h; subst h; simp only [AMap.get?]; split <;> rfl
      · rename_i h1 h2
        simp only [AMap.get?, ih]
        by_cases hj : j = k
        · subst hj; simp; intro h; exact absurd h.symm h2
        · simp [hj]

@[simp] theorem AMap.get?_erase {α : Type} (m : AMap α) (i j : Nat) :
    AMap.get? (AMap.erase m i) j = if j = i then none else AMap.get? m j := by
  induction m with
  | nil => simp [AMap.erase, AMap.get?]
  | cons p m ih =>
    obtain ⟨k, v⟩ := p
    simp only [AMap.erase] at ih ⊢
    by_cases hk : k = i
    · subst hk
      rw [List.filter_cons_of_neg (by simp)]
      rw [ih]; simp only [AMap.get?]
      by_cases hj : j = k <;> simp [hj]
    · rw [List.filter_cons_of_pos (by simpa using hk)]
      simp only [AMap.get?, ih]
      by_cases hj : j = k
      · subst hj; simp [hk]
      · simp [hj]

/-! ## Stalls and cores -/

@[simp] theorem State.stall_modStall (s : State) (i j : Nat) (f : Stall → Stall) :
    (s.modStall i f).stall j = if i = j ∧ j < 33 then f (s.stall j) else s.stall j := by
  simp only [State.stall, State.modStall, vget_vmod]

theorem State.stall_modStall_same (s : State) (i : Fin 33) (f : Stall → Stall) :
    (s.modStall i.val f).stall i.val = f (s.stall i.val) := by simp [i.isLt]

@[simp] theorem State.core_modCore (s : State) (i j : Nat) (f : Core → Core) :
    (s.modCore i f).core j = if i = j ∧ j < 4 then f (s.core j) else s.core j := by
  simp only [State.core, State.modCore, vget_vmod]

/-! ## The register file (R149) -/

/-- R149: reading a specifier after writing it gives the value; other specifiers read as before. -/
theorem Stall.reg_setReg (t : Stall) (m : Nat) (d r : Reg) (v : Capv) (hm : m = 16 ∨ m = 4) :
    (t.setReg m d v).reg m r = if r = d then (if t.wptr < 16 ∨ d.toNat / 8 < 2 then v else t.reg m r) else t.reg m r := by
  have hne : (t.wptr + m - 1) % m ≠ t.wptr := by rcases hm with rfl | rfl <;> omega
  have hlt : (t.wptr + m - 1) % m < 16 := by rcases hm with rfl | rfl <;> omega
  have hr : r.toNat = 8 * (r.toNat / 8) + r.toNat % 8 := by omega
  have hd : d.toNat = 8 * (d.toNat / 8) + d.toNat % 8 := by omega
  have hr8 : r.toNat % 8 < 8 := by omega
  have hd8 : d.toNat % 8 < 8 := by omega
  have hq : r.toNat / 8 < 4 := by have := r.isLt; omega
  have hqd : d.toNat / 8 < 4 := by have := d.isLt; omega
  have key : (r = d) ↔ (r.toNat / 8 = d.toNat / 8 ∧ r.toNat % 8 = d.toNat % 8) := by
    rw [← BitVec.toNat_inj]; omega
  simp only [key]
  unfold Stall.setReg Stall.reg Stall.window
  generalize r.toNat / 8 = a at *
  generalize d.toNat / 8 = b at *
  generalize r.toNat % 8 = x at *
  generalize d.toNat % 8 = y at *
  generalize hqq : (t.wptr + m - 1) % m = q at *
  have ha : a = 0 ∨ a = 1 ∨ a = 2 ∨ a = 3 := by omega
  have hb : b = 0 ∨ b = 1 ∨ b = 2 ∨ b = 3 := by omega
  have hne' := hne.symm
  by_cases hw : t.wptr < 16 <;>
    by_cases hl : t.live = 1 <;> rcases ha with rfl | rfl | rfl | rfl <;> rcases hb with rfl | rfl | rfl | rfl <;>
    by_cases hxy : x = y <;>
    first
    | (have hyx : y = x := hxy.symm; simp [vget_vset, vget_vmod, hl, hw, hlt, hr8, hd8, hxy, hne, hne', hqq])
    | (have hyx : ¬ y = x := fun h => hxy h.symm; simp [vget_vset, vget_vmod, hl, hw, hlt, hxy, hyx, hne, hne', hqq])

end Sys2Proof.Machine
end

