-- ==== Sys2Proof/Laws/Registers.lean ====
section
/-!
SUPPORT. Sys2Proof/Laws/Registers.lean: reading memory-mapped registers, special registers and free values after the named
updates of the state.
-/
namespace Sys2Proof.Machine

/-! ## Memory-mapped registers -/

theorem State.gateway_congr {s t : State} (hs : t.straps = s.straps) (hc : t.chip = s.chip) : t.gateway = s.gateway := by
  simp [State.gateway, hs, hc]

theorem State.reg_congr {s t : State} (hr : t.regs = s.regs) (hs : t.straps = s.straps) (hc : t.chip = s.chip) (a : Nat) :
    t.reg a = s.reg a := by
  simp [State.reg, hr, State.gateway, hs, hc]

@[simp] theorem State.reg_setReg (s : State) (a b : Nat) (v : W32) :
    (s.setReg a v).reg b = if b = a then v else s.reg b := by
  unfold State.reg
  have hg : (s.setReg a v).gateway = s.gateway := rfl
  simp only [State.chip_setReg, hg]
  unfold State.setReg
  by_cases hv : v = regReset s.chip.variant.rateMax s.gateway a
  · simp only [hv, if_true, AMap.get?_erase]
    by_cases hb : b = a <;> simp [hb]
  · simp only [hv, if_false, AMap.get?_set]
    by_cases hb : b = a <;> simp [hb]

@[simp] theorem State.reg_modReg (s : State) (a b : Nat) (f : W32 → W32) :
    (s.modReg a f).reg b = if b = a then f (s.reg a) else s.reg b := by simp [State.modReg]
@[simp] theorem State.reg_orReg (s : State) (a b : Nat) (m : W32) :
    (s.orReg a m).reg b = if b = a then s.reg a ||| m else s.reg b := by simp [State.orReg]
@[simp] theorem State.reg_clrReg (s : State) (a b : Nat) (m : W32) :
    (s.clrReg a m).reg b = if b = a then s.reg a &&& ~~~ m else s.reg b := by simp [State.clrReg]
@[simp] theorem State.reg_setField (s : State) (a b hi lo v : Nat) :
    (s.setField a hi lo v).reg b = if b = a then putBits (s.reg a) hi lo v else s.reg b := by simp [State.setField]
@[simp] theorem State.reg_setPair (s : State) (a b : Nat) (v : W64) :
    (s.setPair a v).reg b = if b = a + 4 then (v >>> 32).truncate 32 else if b = a then v.truncate 32 else s.reg b := by
  simp [State.setPair]

@[simp] theorem State.reg_modStall (s : State) (i : Nat) (f : Stall → Stall) (a : Nat) : (s.modStall i f).reg a = s.reg a := rfl
@[simp] theorem State.reg_modCore (s : State) (i : Nat) (f : Core → Core) (a : Nat) : (s.modCore i f).reg a = s.reg a := rfl
@[simp] theorem State.reg_wr (s : State) (i : Nat) (r : Reg) (v : Capv) (a : Nat) : (s.wr i r v).reg a = s.reg a := rfl
@[simp] theorem State.reg_wrInt (s : State) (i : Nat) (r : Reg) (v : W64) (a : Nat) : (s.wrInt i r v).reg a = s.reg a := rfl
@[simp] theorem State.reg_writeMem (s : State) (b : Nat) (bs : List Byte) (a : Nat) : (s.writeMem b bs).reg a = s.reg a := rfl
@[simp] theorem State.reg_drawWord (s : State) (a : Nat) : s.drawWord.2.reg a = s.reg a := rfl
@[simp] theorem State.reg_drawBool (s : State) (a : Nat) : s.drawBool.2.reg a = s.reg a := rfl

@[simp] theorem State.stall_modCore (s : State) (c j : Nat) (f : Core → Core) : (s.modCore c f).stall j = s.stall j := rfl
@[simp] theorem State.core_modStall (s : State) (c j : Nat) (f : Stall → Stall) : (s.modStall c f).core j = s.core j := rfl

/-! ## Single bits of words -/

theorem getLsbD_putBits {n : Nat} (w : BitVec n) (hi lo v j : Nat) (h : lo ≤ hi) :
    (putBits w hi lo v).getLsbD j = (decide (j < n) && if lo ≤ j ∧ j ≤ hi then v.testBit (j - lo) else w.getLsbD j) := by
  unfold putBits maskOf
  simp only [BitVec.getLsbD_or, BitVec.getLsbD_and, BitVec.getLsbD_not, BitVec.getLsbD_ofNat, Nat.testBit_mul_two_pow,
    Nat.testBit_two_pow_sub_one, Nat.testBit_mod_two_pow]
  by_cases hj : j < n
  · by_cases h1 : lo ≤ j
    · by_cases h2 : j ≤ hi
      · have : j - lo < hi + 1 - lo := by omega
        simp [hj, h1, h2, this]
      · have : ¬ j - lo < hi + 1 - lo := by omega
        simp [hj, h1, h2, this]
    · simp [hj, h1]
  · simp [hj]

@[simp] theorem bit_putBit {n : Nat} (w : BitVec n) (i j : Nat) (b : Bool) (hi : i < n) :
    bit (putBit w i b) j = if j = i then b else bit w j := by
  unfold bit putBit
  rw [getLsbD_putBits _ _ _ _ _ (le_refl i)]
  by_cases e : j = i
  · subst e; cases b <;> simp [hi]
  · have : ¬ (i ≤ j ∧ j ≤ i) := by omega
    by_cases hj : j < n
    · simp [e, this, hj]
    · simp [e, this, hj, BitVec.getLsbD_of_ge _ _ (Nat.le_of_not_lt hj)]

theorem testBit_bits {n : Nat} (w : BitVec n) (hi lo k : Nat) :
    (bits w hi lo).testBit k = (decide (k < hi + 1 - lo) && w.getLsbD (lo + k)) := by
  unfold bits
  rw [Nat.testBit_mod_two_pow, Nat.testBit_div_two_pow]
  simp [BitVec.getLsbD, Nat.add_comm]

@[simp] theorem bits_putBits_same {n : Nat} (w : BitVec n) (hi lo v : Nat) (h : lo ≤ hi) (hn : hi < n) :
    bits (putBits w hi lo v) hi lo = v % 2 ^ (hi + 1 - lo) := by
  apply Nat.eq_of_testBit_eq
  intro k
  rw [testBit_bits, getLsbD_putBits _ _ _ _ _ h, Nat.testBit_mod_two_pow]
  by_cases hk : k < hi + 1 - lo
  · have h1 : lo + k < n := by omega
    have h2 : lo + k ≤ hi := by omega
    simp [hk, h1, h2]
  · simp [hk]

theorem bits_putBits_ne {n : Nat} (w : BitVec n) (hi lo v hi' lo' : Nat) (h : lo ≤ hi) (hd : hi' < lo ∨ hi < lo') :
    bits (putBits w hi lo v) hi' lo' = bits w hi' lo' := by
  apply Nat.eq_of_testBit_eq
  intro k
  rw [testBit_bits, testBit_bits, getLsbD_putBits _ _ _ _ _ h]
  by_cases hk : k < hi' + 1 - lo'
  · have : ¬ (lo ≤ lo' + k ∧ lo' + k ≤ hi) := by omega
    simp only [hk, this, decide_true, Bool.true_and, if_false]
    by_cases hn : lo' + k < n
    · simp [hn]
    · simp [hn, BitVec.getLsbD_of_ge _ _ (Nat.le_of_not_lt hn)]
  · simp [hk]

end Sys2Proof.Machine
end

