-- ==== Sys2Proof/Laws/Issue.lean ====
section
/-!
SUPPORT. Sys2Proof/Laws/Issue.lean: what the issue of an instruction, its completion and the halts at its boundary can do.
-/
namespace Sys2Proof.Machine

/-! ## Issue -/

/-- An instruction whose fetch and body are delivered ends at its boundary. -/
theorem issue_ok {i : Nat} {w : W32} {body : State → Res Unit} {s t u : State} (h : Issues s i t) (hb : body t = .ok () u) :
    issue i w body s = .next (u.boundary i) := by
  unfold issue
  simp [h.1, h.2, hb]

/-- An instruction whose body raises takes the exception with its word. -/
theorem issue_exc {i : Nat} {w : W32} {body : State → Res Unit} {s t u : State} {x : Exc} (h : Issues s i t)
    (hb : body t = .exc x u) : issue i w body s = .next (u.settleExc i { x with insn := w }) := by
  unfold issue
  simp [h.1, h.2, hb]

/-- Whatever its body does, an instruction goes on. -/
theorem issue_next (i : Nat) (w : W32) (body : State → Res Unit) (s : State) : ∃ t, issue i w body s = .next t := by
  unfold issue
  dsimp only
  split
  · exact ⟨_, rfl⟩
  · split
    · exact ⟨_, rfl⟩
    · split <;> exact ⟨_, rfl⟩

/-! ## What a halt leaves alone -/

/-- Two stalls that differ at most in how they stand with the scheduler and the debug module. -/
def Stall.likeRegs (x y : Stall) : Prop :=
  x.s = y.s ∧ x.win = y.win ∧ x.base = y.base ∧ x.pcc = y.pcc ∧ x.specials = y.specials

theorem Stall.likeRegs.refl (x : Stall) : x.likeRegs x := ⟨rfl, rfl, rfl, rfl, rfl⟩
theorem Stall.likeRegs.trans {x y z : Stall} (h : x.likeRegs y) (k : y.likeRegs z) : x.likeRegs z :=
  ⟨h.1.trans k.1, h.2.1.trans k.2.1, h.2.2.1.trans k.2.2.1, h.2.2.2.1.trans k.2.2.2.1, h.2.2.2.2.trans k.2.2.2.2⟩

theorem Stall.halt_likeRegs (t : Stall) (c : BitVec 3) (held : Bool) : (t.halt c held).likeRegs t := by
  unfold Stall.halt
  split
  · exact ⟨rfl, rfl, rfl, rfl, rfl⟩
  · split <;> exact ⟨rfl, rfl, rfl, rfl, rfl⟩

/-- Two states that differ at most in how the stalls stand with the scheduler and in the cores. -/
structure LikeRegs (u t : State) : Prop where
  /-- The registers of every stall. -/
  stalls : ∀ j, (u.stall j).likeRegs (t.stall j)
  /-- Memory. -/
  mem : u.mem = t.mem
  /-- Memory-mapped registers. -/
  regs : u.regs = t.regs
  /-- Straps. -/
  straps : u.straps = t.straps
  /-- Fuses. -/
  chip : u.chip = t.chip

theorem LikeRegs.refl (s : State) : LikeRegs s s := ⟨fun _ => .refl _, rfl, rfl, rfl, rfl⟩
theorem LikeRegs.trans {s t u : State} (h : LikeRegs s t) (k : LikeRegs t u) : LikeRegs s u :=
  ⟨fun j => (h.stalls j).trans (k.stalls j), h.mem.trans k.mem, h.regs.trans k.regs, h.straps.trans k.straps, h.chip.trans k.chip⟩

theorem LikeRegs.modStall {s : State} {i : Nat} {f : Stall → Stall} (h : ∀ t, (f t).likeRegs t) : LikeRegs (s.modStall i f) s :=
  ⟨fun j => by rw [State.stall_modStall]; split; exacts [h _, .refl _], rfl, rfl, rfl, rfl⟩

theorem LikeRegs.modCore (s : State) (c : Nat) (f : Core → Core) : LikeRegs (s.modCore c f) s :=
  ⟨fun _ => .refl _, rfl, rfl, rfl, rfl⟩

theorem LikeRegs.foldl {α : Type} (l : List α) (f : State → α → State) (s : State) (h : ∀ s x, LikeRegs (f s x) s) :
    LikeRegs (l.foldl f s) s := by
  induction l generalizing s with
  | nil => exact .refl s
  | cons x l ih => exact (ih (f s x)).trans (h s x)

theorem State.groupHalt_like (s : State) (i : Nat) : LikeRegs (s.groupHalt i) s := by
  unfold State.groupHalt
  split
  · refine LikeRegs.foldl _ _ _ (fun s j => ?_)
    split
    · exact .modStall (fun t => t.halt_likeRegs _ _)
    · exact .refl s
  · exact .refl s

theorem State.haltStall_like (s : State) (i : Nat) (c : BitVec 3) : LikeRegs (s.haltStall i c) s :=
  (State.groupHalt_like _ _).trans (.modStall (fun t => t.halt_likeRegs _ _))

theorem State.stepEnd_like (s : State) (i : Nat) : LikeRegs (s.stepEnd i) s := by
  unfold State.stepEnd
  dsimp only
  split
  · exact .refl s
  · split
    · exact s.haltStall_like i 2
    · exact s.haltStall_like i 2
    · exact s.haltStall_like i 2
    · exact s.haltStall_like i 2
    · exact .refl s
    · exact .modStall (fun t => ⟨rfl, rfl, rfl, rfl, rfl⟩)

/-- The boundary after an instruction leaves every register, memory and the memory-mapped registers alone. -/
theorem State.boundary_like (s : State) (i : Nat) : LikeRegs (s.boundary i) s := by
  unfold State.boundary
  dsimp only
  refine (State.stepEnd_like _ _).trans ?_
  split
  · exact (LikeRegs.modCore _ _ _).trans (.modStall (fun t => ⟨rfl, rfl, rfl, rfl, rfl⟩))
  · exact .modStall (fun t => ⟨rfl, rfl, rfl, rfl, rfl⟩)

theorem Stall.likeRegs.reg {x y : Stall} (h : x.likeRegs y) (m : Nat) (r : Reg) : x.reg m r = y.reg m r := by
  obtain ⟨h1, h2, h3, _, h5⟩ := h
  have hw : x.wptr = y.wptr := by have := congrArg (fun p => p.2.2.2.1) h5; exact this
  have hl : x.live = y.live := by have := congrArg (fun p => p.2.2.2.2.1) h5; exact this
  unfold Stall.reg Stall.window
  rw [h1, h2, h3, hw, hl]

theorem LikeRegs.rd {u t : State} (h : LikeRegs u t) (i : Nat) (r : Reg) : u.rd i r = t.rd i r := (h.stalls i).reg _ _

theorem LikeRegs.pcc {u t : State} (h : LikeRegs u t) (i : Nat) : (u.stall i).pcc = (t.stall i).pcc := (h.stalls i).2.2.2.1

theorem LikeRegs.onlyWrites {u t : State} (h : LikeRegs u t) (i : Nat) : OnlyWrites t u i none where
  regs r _ := h.rd i r
  specials := (h.stalls i).2.2.2.2
  others j _ r := h.rd j r
  otherSpecials j _ := (h.stalls j).2.2.2.2
  bytes a := by simp [State.readMem, h.mem]
  tags a := by simp [State.tagAt, h.mem]
  registers a := State.reg_congr h.regs h.straps h.chip a

theorem OnlyWrites.trans {s t u : State} {i : Nat} {d : Option Reg} (h : OnlyWrites s t i d) (k : OnlyWrites t u i d) :
    OnlyWrites s u i d where
  regs r hr := (k.regs r hr).trans (h.regs r hr)
  specials := k.specials.trans h.specials
  others j hj r := (k.others j hj r).trans (h.others j hj r)
  otherSpecials j hj := (k.otherSpecials j hj).trans (h.otherSpecials j hj)
  bytes a := (k.bytes a).trans (h.bytes a)
  tags a := (k.tags a).trans (h.tags a)
  registers a := (k.registers a).trans (h.registers a)

theorem OnlyWrites.weaken {s t : State} {i : Nat} (h : OnlyWrites s t i none) (d : Option Reg) : OnlyWrites s t i d where
  regs r _ := h.regs r (by simp)
  specials := h.specials
  others := h.others
  otherSpecials := h.otherSpecials
  bytes := h.bytes
  tags := h.tags
  registers := h.registers

/-! ## Register writes -/

theorem Stall.specials_setReg (t : Stall) (m : Nat) (r : Reg) (v : Capv) : (t.setReg m r v).specials = t.specials := by
  unfold Stall.setReg
  dsimp only
  split
  · rfl
  · split <;> rfl
  · rfl
  · rfl

theorem Stall.pcc_setReg (t : Stall) (m : Nat) (r : Reg) (v : Capv) : (t.setReg m r v).pcc = t.pcc := by
  unfold Stall.setReg
  dsimp only
  split
  · rfl
  · split <;> rfl
  · rfl
  · rfl

theorem nwin_cases (i : Nat) : nwin i = 16 ∨ nwin i = 4 := by unfold nwin; split <;> simp

/-- Writing a register changes that register alone. -/
theorem State.wr_onlyWrites (s : State) (i : Nat) (d : Reg) (v : Capv) :
    OnlyWrites s (s.wr i d v) i (some d) where
  regs r hr := by
    have hne : r ≠ d := fun e => hr (by rw [e])
    unfold State.rd State.wr
    rw [State.stall_modStall]
    split
    · rw [Stall.reg_setReg _ _ _ _ _ (nwin_cases i)]; simp [hne]
    · rfl
  specials := by
    unfold State.wr; rw [State.stall_modStall]; split
    · exact Stall.specials_setReg _ _ _ _
    · rfl
  others j hj r := by unfold State.rd State.wr; rw [State.stall_modStall]; simp [Ne.symm hj]
  otherSpecials j hj := by unfold State.wr; rw [State.stall_modStall]; simp [Ne.symm hj]
  bytes a := rfl
  tags a := rfl
  registers a := rfl

theorem State.rd_wr_same (s : State) (st : Ctx) (d : Reg) (v : Capv) (hw : (s.stall st.val).wptr < 16) :
    (s.wr st.val d v).rd st.val d = v := by
  unfold State.rd State.wr
  rw [State.stall_modStall_same, Stall.reg_setReg _ _ _ _ _ (nwin_cases _)]
  simp [hw]

theorem State.modStall_onlyWrites (s : State) (i : Nat) (f : Stall → Stall)
    (h : ∀ t, (f t).s = t.s ∧ (f t).win = t.win ∧ (f t).base = t.base ∧ (f t).specials = t.specials) :
    OnlyWrites s (s.modStall i f) i none where
  regs r _ := by
    unfold State.rd; rw [State.stall_modStall]; split
    · obtain ⟨h1, h2, h3, h5⟩ := h (s.stall i)
      have hw : (f (s.stall i)).wptr = (s.stall i).wptr := by have := congrArg (fun p => p.2.2.2.1) h5; exact this
      have hl : (f (s.stall i)).live = (s.stall i).live := by have := congrArg (fun p => p.2.2.2.2.1) h5; exact this
      unfold Stall.reg Stall.window
      rw [h1, h2, h3, hw, hl]
    · rfl
  specials := by rw [State.stall_modStall]; split; exacts [(h _).2.2.2, rfl]
  others j hj r := by unfold State.rd; rw [State.stall_modStall]; simp [Ne.symm hj]
  otherSpecials j hj := by rw [State.stall_modStall]; simp [Ne.symm hj]
  bytes a := rfl
  tags a := rfl
  registers a := rfl

theorem State.advance_onlyWrites (s : State) (i : Nat) : OnlyWrites s (s.modStall i Stall.advance) i none :=
  s.modStall_onlyWrites i _ (fun _ => ⟨rfl, rfl, rfl, rfl⟩)

/-! ## Completion -/

theorem State.doneOnly_onlyWrites (s : State) (i : Nat) : OnlyWrites s (s.doneOnly i) i none :=
  (s.advance_onlyWrites i).trans ((State.boundary_like _ i).onlyWrites i)

theorem State.done_onlyWrites (s : State) (i : Nat) (d : Reg) (v : Capv) :
    OnlyWrites s (s.done i d v) i (some d) :=
  (s.wr_onlyWrites i d v).trans (((State.doneOnly_onlyWrites _ i)).weaken _)

theorem State.done_pcc (s : State) (st : Ctx) (d : Reg) (v : Capv) :
    ((s.done st.val d v).stall st.val).pcc = Cap.setAddr (s.stall st.val).pcc (Cap.addr (s.stall st.val).pcc + 4) := by
  unfold State.done
  rw [(State.boundary_like _ _).pcc, State.stall_modStall_same]
  unfold Stall.advance State.wr
  simp [st.isLt, Stall.pcc_setReg]

theorem State.doneOnly_pcc (s : State) (st : Ctx) :
    ((s.doneOnly st.val).stall st.val).pcc = Cap.setAddr (s.stall st.val).pcc (Cap.addr (s.stall st.val).pcc + 4) := by
  unfold State.doneOnly
  rw [(State.boundary_like _ _).pcc, State.stall_modStall_same]
  rfl

end Sys2Proof.Machine
end

