-- ==== Sys2Proof/Laws/Memory.lean ====
section
/-!
SUPPORT. Sys2Proof/Laws/Memory.lean: the canonical form of memory, that every memory operation keeps it, and reading after
writing.
-/
namespace Sys2Proof.Machine

/-! ## The canonical form as a list property -/

theorem AMap.sorted_iff {α : Type} (m : AMap α) : AMap.sorted m = true ↔ m.Pairwise (fun p q => p.1 < q.1) := by
  induction m with
  | nil => simp [AMap.sorted]
  | cons p m ih =>
    cases m with
    | nil => simp [AMap.sorted]
    | cons q m =>
      obtain ⟨a, x⟩ := p
      obtain ⟨b, y⟩ := q
      simp only [AMap.sorted, Bool.and_eq_true, decide_eq_true_eq, ih, List.pairwise_cons, List.mem_cons]
      constructor
      · rintro ⟨h, hb, hp⟩
        refine ⟨?_, hb, hp⟩
        rintro r (rfl | hr)
        · exact h
        · exact Nat.lt_trans h (hb r hr)
      · rintro ⟨h, hb, hp⟩
        exact ⟨h _ (.inl rfl), hb, hp⟩

theorem Memory.wf_iff (m : Memory) :
    Memory.wf m = true ↔ m.Pairwise (fun p q => p.1 < q.1) ∧ ∀ c ∈ m, c.2 ≠ 0 := by
  simp [Memory.wf, AMap.sorted_iff]

/-! ## Every operation keeps it -/

theorem AMap.mem_set {α : Type} {m : AMap α} {i : Nat} {x : α} {p : Nat × α} (h : p ∈ AMap.set m i x) :
    p = (i, x) ∨ p ∈ m := by
  induction m with
  | nil => simpa [AMap.set] using h
  | cons q m ih =>
    obtain ⟨k, v⟩ := q
    simp only [AMap.set] at h
    split at h
    · simpa using h
    · split at h
      · rename_i hk
        rcases List.mem_cons.1 h with h | h
        · exact .inl (by rw [h, hk])
        · exact .inr (List.mem_cons_of_mem _ h)
      · rcases List.mem_cons.1 h with h | h
        · exact .inr (by rw [h]; exact List.mem_cons_self)
        · exact (ih h).imp_right (List.mem_cons_of_mem _)

theorem AMap.pairwise_set {α : Type} {m : AMap α} (i : Nat) (x : α) (h : m.Pairwise (fun p q => p.1 < q.1)) :
    (AMap.set m i x).Pairwise (fun p q => p.1 < q.1) := by
  induction m with
  | nil => simp [AMap.set]
  | cons q m ih =>
    obtain ⟨k, v⟩ := q
    have ⟨hq, hm⟩ := List.pairwise_cons.1 h
    simp only [AMap.set]
    split
    · rename_i hi
      refine List.pairwise_cons.2 ⟨?_, h⟩
      intro r hr
      rcases List.mem_cons.1 hr with rfl | hr
      · exact hi
      · exact Nat.lt_trans hi (hq r hr)
    · split
      · exact List.pairwise_cons.2 ⟨hq, hm⟩
      · rename_i h1 h2
        refine List.pairwise_cons.2 ⟨?_, ih hm⟩
        intro r hr
        rcases AMap.mem_set hr with rfl | hr
        · show k < i; omega
        · exact hq r hr

theorem Memory.wf_filter {m : Memory} (p : Host.Cell → Bool) (h : Memory.wf m = true) : Memory.wf (m.filter p) = true := by
  rw [Memory.wf_iff] at h ⊢
  exact ⟨h.1.filter _, fun c hc => h.2 c (List.mem_of_mem_filter hc)⟩

/-- Writing a byte keeps the canonical form. -/
theorem Memory.wf_put {m : Memory} (a : Nat) (b : Byte) (h : Memory.wf m = true) : Memory.wf (Memory.put m a b) = true := by
  unfold Memory.put
  split
  · exact Memory.wf_filter _ h
  · rename_i hb
    rw [Memory.wf_iff] at h ⊢
    refine ⟨AMap.pairwise_set a b h.1, ?_⟩
    intro c hc
    rcases AMap.mem_set hc with rfl | hc
    · exact hb
    · exact h.2 c hc

/-- Writing bytes keeps the canonical form. -/
theorem Memory.wf_write {m : Memory} (a : Nat) (bs : List Byte) (h : Memory.wf m = true) :
    Memory.wf (Memory.write m a bs) = true := by
  induction bs generalizing m a with
  | nil => exact h
  | cons b bs ih => exact ih _ (Memory.wf_put _ _ h)

theorem State.memOk_reset : State.reset.memOk := rfl

theorem State.memOk_writeMem {s : State} (a : Nat) (bs : List Byte) (h : s.memOk) : (s.writeMem a bs).memOk :=
  Memory.wf_write a bs h

theorem State.memOk_clearMem {s : State} (lo hi : Nat) (h : s.memOk) : (s.clearMem lo hi).memOk :=
  Memory.wf_filter _ h

theorem State.memOk_setTag {s : State} (a : Nat) (t : Bool) (h : s.memOk) : (s.setTag a t).memOk := h

theorem State.memOk_clearTags {s : State} (a n : Nat) (h : s.memOk) : (s.clearTags a n).memOk := h

/-! ## Reading after writing -/

@[simp] theorem Memory.get_put (m : Memory) (a k : Nat) (b : Byte) :
    Memory.get (Memory.put m a b) k = if k = a then b else Memory.get m k := by
  unfold Memory.put Memory.get
  split
  · rename_i hb; subst hb; simp only [AMap.get?_erase]; split <;> rfl
  · simp only [AMap.get?_set]; split <;> rfl

/-- A byte after a write: the byte written where the write reaches it, the old byte elsewhere. -/
theorem Memory.get_write (m : Memory) (a k : Nat) (bs : List Byte) :
    Memory.get (Memory.write m a bs) k = if a ≤ k ∧ k < a + bs.length then bs.getD (k - a) 0 else Memory.get m k := by
  induction bs generalizing m a with
  | nil => simp only [Memory.write, List.length_nil]; rw [if_neg (by omega)]
  | cons b bs ih =>
    simp only [Memory.write, ih, Memory.get_put, List.length_cons]
    by_cases h1 : k = a
    · subst h1; simp
    · rw [if_neg h1]
      by_cases h2 : a + 1 ≤ k ∧ k < a + 1 + bs.length
      · rw [if_pos h2, if_pos (by omega)]
        obtain ⟨j, hj⟩ : ∃ j, k - a = j + 1 := ⟨k - a - 1, by omega⟩
        rw [hj, show k - (a + 1) = j by omega]; simp
      · rw [if_neg h2, if_neg (by omega)]

/-- Reading back what was written. -/
theorem Memory.read_write (m : Memory) (a : Nat) (bs : List Byte) : Memory.read (Memory.write m a bs) a bs.length = bs := by
  apply List.ext_getElem
  · simp [Memory.read]
  · intro k h1 h2
    simp only [Memory.read, List.getElem_map, List.getElem_range, Memory.get_write]
    rw [if_pos (by omega)]
    simp [h2]

/-- A read beside a write. -/
theorem Memory.read_write_ne (m : Memory) (a k n : Nat) (bs : List Byte) (h : k + n ≤ a ∨ a + bs.length ≤ k) :
    Memory.read (Memory.write m a bs) k n = Memory.read m k n := by
  simp only [Memory.read, List.map_inj_left, List.mem_range]
  intro j hj
  rw [Memory.get_write, if_neg (by omega)]

theorem State.readMem_writeMem (s : State) (a : Nat) (bs : List Byte) : (s.writeMem a bs).readMem a bs.length = bs :=
  Memory.read_write _ a bs

theorem State.readMem_writeMem_ne (s : State) (a k n : Nat) (bs : List Byte) (h : k + n ≤ a ∨ a + bs.length ≤ k) :
    (s.writeMem a bs).readMem k n = s.readMem k n :=
  Memory.read_write_ne _ a k n bs h

@[simp] theorem Memory.length_read (m : Memory) (a n : Nat) : (Memory.read m a n).length = n := by simp [Memory.read]

/-! ## Tags -/

theorem insertNat_contains (l : List Nat) (i j : Nat) : (insertNat l i).contains j = (l.contains j || j == i) := by
  induction l with
  | nil => rw [Bool.eq_iff_iff]; simp [insertNat]
  | cons k l ih =>
    simp only [insertNat]
    split
    · simp only [List.contains_cons]; cases (j == i) <;> simp
    · split
      · rename_i h; subst h; simp only [List.contains_cons]; cases (j == i) <;> simp
      · simp only [List.contains_cons, ih, Bool.or_assoc]

/-- The tag of a granule after one is set or cleared. -/
theorem State.tagAt_setTag (s : State) (a k : Nat) (t : Bool) :
    (s.setTag a t).tagAt k = if k / 16 = a / 16 then t else s.tagAt k := by
  unfold State.setTag State.tagAt
  cases t with
  | true =>
    simp only [if_true, insertNat_contains]
    by_cases h : k / 16 = a / 16 <;> simp [h]
  | false =>
    by_cases h : k / 16 = a / 16 <;> simp [h]

/-- The tags after those that n bytes touch are cleared (R125). -/
theorem State.tagAt_clearTags (s : State) (a n k : Nat) :
    (s.clearTags a n).tagAt k = (s.tagAt k && decide ((k / 16 + 1) * 16 ≤ a ∨ a + n ≤ k / 16 * 16)) := by
  unfold State.clearTags State.tagAt
  rw [Bool.eq_iff_iff]
  simp

end Sys2Proof.Machine
end

