-- ==== Sys2Proof/Machine/Balls.lean ====
section
/-!
DEFINITION. Sys2Proof/Machine/Balls.lean: what stands at the balls and on the rails: the rails' nominal voltages (R72), the
states of the balls at reset and while their units drive them (R42, R45 to R49, R445, R585, R588). They are views of the state.
-/
namespace Sys2Proof.Machine

/-- What a ball does: the codes of R45, and a waveform whose single levels the model does not follow (a frame or a byte that is
under way). -/
inductive BallState where
  | z | pu | pd | low | high | wave
deriving DecidableEq, Repr

/-- A driven level. -/
def BallState.of (b : Bool) : BallState := if b then .high else .low

/-! ## Rails (R72, R541) -/

/-- R72: a rail's nominal voltage in mV; VDD_NAVE's follows the derating level (R541). -/
def State.railNominal (s : State) (r : Rail) : Nat :=
  match r with
  | .vpre => 4500
  | .vsacCore | .vddtSd | .vddDphy => 1200
  | .vsacIo | .strapHi | .v33Out => 3300
  | .vbuck => 3600
  | .vddNave => vddNaveMv s.sac.derate.vdd.toNat
  | .vddaSd => 850
  | .vddqPhy | .dramVddq => 500
  | .v18Out | .dramVdd1 => 1800
  | .dramVdd2h => 1050
  | .dramVdd2l => 900

/-- R72, R74: a rail is up. -/
def State.railUp (s : State) (r : Rail) : Bool :=
  match r with
  | .vpre => s.power.vpre
  | .vsacCore | .vsacIo | .strapHi => s.power.sacPhase != .porHeld
  | r => s.power.rails.contains r

/-- A rail's voltage in mV: its nominal value while it is up, else 0. -/
def State.railMv (s : State) (r : Rail) : Nat := if s.railUp r then s.railNominal r else 0

/-! ## SAC-bank balls (R45 to R50) -/

/-- R45: the Sacristy drives the lamp's balls from step 5 on. -/
def State.sacDrives (s : State) : Bool := s.power.vigilArmed

/-- R47: ball LPn. -/
def State.ballLp (s : State) (n : Nat) : BallState := .of (s.lpBall n)
/-- R47: ball LDRV_ENn. -/
def State.ballLdrv (s : State) (n : Nat) : BallState := .of (bit s.sac.mux.ldrvEn n)
/-- R45, R48: ball VIGIL_N: pulled up until the Sacristy drives it, then low while vigil light is in force. -/
def State.ballVigilN (s : State) : BallState := if s.sacDrives then .of (bit s.pins 0) else .pu
/-- A frame is on the DALI bus. -/
def State.daliFrame (s : State) : Bool := s.dali.busy || s.dali.sacFrame.isSome
/-- R45, R49: ball DALI_TX: pulled up until the Sacristy drives it, high while the bus is idle, the frame's waveform while one is
sent. -/
def State.ballDaliTx (s : State) : BallState := if ¬ s.sacDrives then .pu else if s.daliFrame then .wave else .high
/-- R49, R449: what DALI_RX shows: low while the bus is held low, a waveform while a frame is on it, else high. -/
def State.ballDaliRx (s : State) : BallState := if s.dali.fault then .low else if s.daliFrame then .wave else .high

/-! ## Nave-bank balls (R42, R45, R585, R588), numbered as R588 numbers them -/

/-- The table "Nave low-speed and system signals": the state of ball i at reset. -/
def ballReset (i : Nat) : BallState :=
  if i < 6 then .z
  else if i < 14 then (if i = 9 ∨ i = 13 then .pd else .pu)
  else if i < 24 then (if (i - 14) % 5 < 3 then .pd else .pu)
  else if i < 56 then .pd
  else if i < 60 then (if i = 57 then .pu else .pd)
  else if i = 60 then .pu
  else if i = 61 ∨ i = 63 then .low
  else .pd

/-- R580: an I²C ball: released, or carrying a transfer. -/
def State.ballI2c (s : State) (n : Nat) : BallState := if (s.i2c n).busy ∨ ¬ (s.i2c n).queue.isEmpty then .wave else .z

/-- R583: ball k of UART n: TX, RX, RTS_N, CTS_N. -/
def State.ballUart (s : State) (n k : Nat) : BallState :=
  if ¬ s.flag (aLsio (0x800 + 0x100 * n)) 0 ∨ k % 2 = 1 then ballReset (6 + 4 * n + k)
  else if k = 0 then (if (s.uart n).tx.isEmpty then .high else .wave)
  else .of (s.uartRtsN n)

/-- R581, R582: ball k of SPI n: SCK, MOSI, MISO, CS0_N, CS1_N. -/
def State.ballSpi (s : State) (n k : Nat) : BallState :=
  if ¬ s.flag (aLsio (0x400 + 0x100 * n)) 0 ∨ k = 2 then ballReset (14 + 5 * n + k)
  else if k = 3 ∨ k = 4 then .of (!bit (s.spi n).csLow (k - 3))
  else if k = 0 ∧ (s.spi n).tx.isEmpty then .of (s.flag (aLsio (0x400 + 0x100 * n)) 2)
  else .wave

/-- R585: ball GPIOn as its configuration has it. -/
def State.ballGpio (s : State) (n : Nat) : BallState :=
  let cfg := s.reg (aLsio (0xC00 + 4 * n))
  let pull : BallState := if bits cfg 10 9 = 1 then .pu else if bits cfg 10 9 = 2 then .pd else .z
  let drive := fun (b : Bool) => if bit cfg 8 ∧ b then pull else BallState.of b
  match bits cfg 1 0 with
  | 1 => drive (s.flag (aLsio 0xC80) n)
  | 2 => drive (s.gtOut (bits cfg 6 2 / 2) (bits cfg 6 2 % 2))
  | _ => pull

/-- R399: ball k of the thermal port: SCK, CS_N, MOSI, MISO. -/
def State.ballThm (s : State) (k : Nat) : BallState :=
  if ¬ s.flag (aClr 0x18) 0 ∨ k = 3 then ballReset (56 + k)
  else if k = 1 then .high
  else if k = 0 then .of (s.flag (aClr 0x18) 2)
  else .wave

/-- What the units make of ball i. -/
def State.ballUnit (s : State) (i : Nat) : BallState :=
  if i < 6 then s.ballI2c (i / 2)
  else if i < 14 then s.ballUart ((i - 6) / 4) ((i - 6) % 4)
  else if i < 24 then s.ballSpi ((i - 14) / 5) ((i - 14) % 5)
  else if i < 56 then s.ballGpio (i - 24)
  else if i < 60 then s.ballThm (i - 56)
  else if i = 61 then .of (bit s.pins 1)
  else if i = 63 then .of s.tt.ppsOut
  else ballReset i

/-- R42, R45, R46, R588: ball i: high impedance while its bank is unpowered, as the boundary register drives it, else as its unit
does; a unit that is not configured leaves it in its reset state. -/
def State.ball (s : State) (i : Nat) : BallState :=
  if ¬ s.bankUp (cellBank i) then .z
  else match s.scanDrive i with
    | some (some b) => .of b
    | some none => .z
    | none => s.ballUnit i

/-- R588: ball NRST_OUT_N by the general view and by its own. -/
def State.ballNrst (s : State) : BallState := s.ball 61

end Sys2Proof.Machine
end

