-- ==== Sys2Proof/Tests/Slice0.lean ====
section
/-!
SUPPORT. Sys2Proof/Tests/Slice0.lean: commands that are not well formed, worked examples of the spec, and for every statement
that has premises a state and operands that meet them, at the edges of its ranges where it has clauses.
-/
namespace Sys2Proof.Tests
set_option Elab.async false
open Sys2Proof Sys2Proof.Machine

/-! ## Commands that are not well formed -/

theorem test_wf_refuses :
    (Instr.pairLowRead .sacristy 0x20000104).wf = false ∧ (Instr.pairLowWrite .sacristy 0x20000000 0).wf = false ∧
    (Instr.pairHighWrite .sacristy 0x20000000 0).wf = false ∧ (Instr.pairWrite64 .sacristy 0x20000000 0).wf = false ∧
    (Instr.islandCrossing 0 .timers 1).wf = false ∧ (Instr.islandCrossing 0 .timers 5).wf = false ∧
    (Instr.laneKeyAgreement 0 0 [] (List.replicate 32 0) true).wf = false ∧
    (Instr.laneKeyAgreement 0 0 (List.replicate 32 0) [] true).wf = false ∧
    (Instr.codewordRx 0 .corrected 0 []).wf = false ∧ (Instr.safeCellRx 0 0 []).wf = false ∧
    (Instr.lcDebug 0 true []).wf = false ∧ (Instr.lcDecommission 0 true []).wf = false ∧
    (Instr.reservedEncoding 0 0x04000000).wf = false := by decide +kernel

/-- A frame whose payload does not have its length. -/
def shortFrame : Frame :=
  { type := 3, cls := 1, dest := 1, src := 2, noid := false, bcast := false, wrapped := false, hops := 0, seq := 0,
    length := 64, stamp := 0, payload := [] }

theorem test_wf_refuses_frames :
    (Instr.frameRx 0 ⟨shortFrame, false⟩).wf = false ∧ (Instr.farRequestRx shortFrame).wf = false ∧
    (Instr.queryRx shortFrame).wf = false ∧ (Instr.farResponseRx shortFrame).wf = false := by decide +kernel

/-! ## A started Nave -/

/-- The boot root with its cursor k bytes into Close SRAM. -/
def ram (k : Nat) : Capv := Cap.setAddr Cap.bootRoot (BitVec.ofNat 64 (0x10000000 + k))

/-- A started Nave: NC0.ST0 runs at the base of Close SRAM with every permission, the L1 instruction cache of NC0 holds the line that
it fetches from and that of the handler of vector 21, and every unit is ready. -/
def up : State :=
  { State.reset with
    power := { State.reset.power with
      navePhase := .running, sacPhase := .running, vigilArmed := true, refGood := true, refJudged := true, rails := naveRails,
      vpre := true, vinOn := true, boWait := false, vinMv := 24000, budget := 2550 }
    caches := { Caches.init with l1i := vset Caches.init.l1i 0 [⟨0x10000000 / 64, false⟩, ⟨0x101FF280 / 64, false⟩] }
    freeCtr := 2
    stalls := vset (vset State.reset.stalls 0
      { Stall.init with state := .running, pcc := ram 0, s := vset Stall.init.s 0 (ram 0) }) 32 Stall.sacStart
    regs := [(aReady, 0x7FFFFF)] }

/-- A state with every bank of balls powered. -/
def lit (s : State) : State := { s with power := { s.power with banks := Vector.replicate _ .v33 } }

/-- `up` with values in S1 and S2. -/
def ops (x y : Capv) : State := (up.wr 0 1 x).wr 0 2 y
/-- The same with integers in S1 and S2. -/
def ints (x y : W64) : State := ops (Cap.ofInt x) (Cap.ofInt y)

/-- The state from which the fetch of a Nave stall that hits its cache leaves a state: two free values fewer are drawn. -/
def before (t : State) : State := { t with freeCtr := t.freeCtr - 2 }

/-- The next instruction of a context issues in a state, and its fetch leaves t. -/
def leads (s : State) (i : Nat) (t : State) : Bool :=
  s.sacResume i == s && s.canIssue i && match s.fetch i with
    | .ok _ u => u == t
    | .exc _ _ => false

/-- The next instruction of a context issues: the state is the one after its fetch. -/
def clean (t : State) (i : Nat) : Bool := leads (before t) i t

theorem leads_issues {s t : State} {i : Nat} (h : leads s i t = true) : Issues s i t := by
  unfold leads at h
  simp only [Bool.and_eq_true, beq_iff_eq] at h
  obtain ⟨⟨h1, h2⟩, h3⟩ := h
  refine ⟨by rw [h1]; exact h2, ?_⟩
  rw [h1]
  split at h3
  · rename_i u e; rw [e]; simp only [beq_iff_eq] at h3; rw [h3]
  · simp at h3

theorem clean_issues {t : State} {i : Nat} (h : clean t i = true) : Issues (before t) i t := leads_issues h

theorem test_issues : Issues (before up) 0 up ∧ Issues up 32 up ∧ Issues (before (ints 7 0)) 0 (ints 7 0) :=
  ⟨clean_issues (by decide +kernel), leads_issues (by decide +kernel), clean_issues (by decide +kernel)⟩

/-- No stall of a state holds a store. -/
theorem holdsNothing {s : State} (h : ∀ j : Fin 33, (s.stall j.val).sbuf = []) (ea n j : Nat) :
    (s.stall j).holdsStore ea n = false := by
  by_cases hj : j < 33
  · unfold Stall.holdsStore; rw [h ⟨j, hj⟩]; rfl
  · have : s.stall j = Stall.init := by simp [State.stall, vget_eq, hj]
    rw [this]; rfl

/-- No comparator is set. -/
theorem breaksNothing {s : State} {i : Nat} (h : s.dbg.bps = Dbg.init.bps) (hi : i < 32) (kinds : List Nat) (a n : Nat) :
    s.breakAt i kinds a n = false := by
  unfold State.breakAt
  rw [h, vget_eq, dif_pos (by omega)]
  have : ∀ k, (hk : k < 4) → Dbg.init.bps[k] = Vector.replicate 6 { addr := 0, ctrl := 0 } := by
    intro k hk; simp [Dbg.init]
  rw [this]
  simp [Bp.hit, bit]

/-- An access of `up` with one capability in S1. -/
def hold (c : Capv) : State := up.wr 0 1 c

theorem test_plain (k : AccKind) (n : Nat) (hn : n = 1 ∨ n = 64 ∨ n = 4096) : Plain (hold (ram 0x1000)) 0 k false 0x10001000 n where
  nave := by decide
  page := by omega
  close := by omega
  off := rfl
  settled := rfl
  admitted := by cases k <;> decide +kernel
  free kinds := breaksNothing rfl (by decide) _ _ _
  alone := holdsNothing (by decide +kernel) _ _
  sound := ⟨rfl, rfl⟩

/-! ## Premises of the statements: the machine and the registers -/

theorem test_met_queue :
    ({ State.reset with pending := [.vinOn, .vinBo] } : State).pending = .vinOn :: [.vinBo] ∧ State.reset.pending = [] ∧
    State.reset.memOk ∧ ∃ t, step { State.reset with pending := [.vinOn, .vinBo] } = .next t := ⟨rfl, rfl, rfl, _, rfl⟩

/-- R149, at the edges of the ring: the last window, the first window with a caller, and LIVE 1. -/
theorem test_met_RegisterFileAndWindows :
    (up.stall 32).wptr < 16 ∧ ({ Stall.init with wptr := 15, live := 16 } : Stall).wptr < 16 ∧
    ({ Stall.init with wptr := 15, live := 16 } : Stall).live ≠ 1 ∧ ({ Stall.init with wptr := 3, live := 4 } : Stall).wptr < 4 ∧
    ({ Stall.init with wptr := 0, live := 9 } : Stall).live ≠ 1 ∧ Stall.init.live = 1 := by decide +kernel

theorem test_met_PlainFetchIssues :
    up.running 0 = true ∧ (up.stall 0).outcome = none ∧ up.intDue 0 = none ∧ (up.stall 0).pcc.tag = true ∧
    Cap.kind (up.stall 0).pcc = 0 ∧ Cap.has (up.stall 0).pcc permExec = true ∧ (Cap.addr (up.stall 0).pcc).toNat % 4 = 0 ∧
    Cap.inBounds (up.stall 0).pcc (Cap.addr (up.stall 0).pcc).toNat 4 = true ∧ (Cap.addr (up.stall 0).pcc).toNat = 0x10000000 ∧
    (up.decided 0 .fetch false 0x10000000).attr = 0 ∧ up.touchesSealed 0x10000000 64 = false := by decide +kernel

/-! ## Premises: integer and capability instructions -/

/-- The corners of R189: division by 0, the most negative number by −1, a source of 0, in both widths. -/
theorem test_met_IntegerCorners :
    (Issues (before (ints 7 0)) 0 (ints 7 0) ∧ (ints 7 0).rdInt 0 2 = 0 ∧ ((ints 7 0).rdInt 0 2).setWidth 32 = 0) ∧
    (Issues (before (ints (2 ^ 63) (-1))) 0 (ints (2 ^ 63) (-1)) ∧ ((ints (2 ^ 63) (-1)).rdInt 0 1).toInt = -2 ^ 63 ∧
      ((ints (2 ^ 63) (-1)).rdInt 0 2).toInt = -1 ∧ (ints (2 ^ 63) (-1)).rdInt 0 2 ≠ 0) ∧
    (((ints 0x80000000 0xFFFFFFFF).rdInt 0 1).setWidth 32).toInt = -2 ^ 31 ∧
    (((ints 0x80000000 0xFFFFFFFF).rdInt 0 2).setWidth 32).toInt = -1 ∧ up.rdInt 0 1 = 0 :=
  ⟨⟨clean_issues (by decide +kernel), by decide +kernel, by decide +kernel⟩,
    ⟨clean_issues (by decide +kernel), by decide +kernel, by decide +kernel, by decide +kernel⟩, by decide +kernel, by decide +kernel,
    by decide +kernel⟩

theorem test_met_IntegerInstructionsWriteOnlyD :
    (Instr.add 0 3 1 2 true).intDest = some (0, 3) ∧ (Instr.andOp 0 3 1 2 false).intDest = some (0, 3) ∧
    (Instr.slli 0 3 1 31 true 0).intDest = some (0, 3) ∧ (Instr.srai 0 3 1 63 false 0).intDest = some (0, 3) ∧
    (Instr.ins16 0 3 3 5).intDest = some (0, 3) ∧ (Instr.clz 0 3 1 0 true).intDest = some (0, 3) := by decide

theorem test_met_ReservedFormsRaiseIllegal :
    (1 : Reg) ≠ 0 ∧ 32 ≤ (32 : BitVec 6).toNat ∧ ((32 : Ctx).val = 32) ∧ reservedWord 0xFFFFFFFF = true ∧ Issues up 32 up :=
  ⟨by decide, by decide, rfl, by decide +kernel, leads_issues (by decide +kernel)⟩

/-- R118, R121: a source of kind 0 and one of kind 3, lengths that are exact and rounded, a cursor on the base. -/
theorem test_met_CapabilityDerivations :
    let s := ops (Cap.withBounds (ram 0) (encodeBounds 0x10000000 0x10001000)) (Cap.ofInt 64)
    let c := s.rd 0 1
    Issues (before s) 0 s ∧ c.tag = true ∧ Cap.kind c = 0 ∧ Cap.has c permSetBounds = true ∧ Cap.has c permExec = true ∧
    Cap.base c ≤ (encodeBounds 0x10000000 0x10000040).b0 ∧ ((encodeBounds 0x10000000 0x10000040).t0 : Int) ≤ Cap.top c ∧
    (encodeBounds 0x10000000 0x10000040).b0 = 0x10000000 ∧ (encodeBounds 0x10000000 0x10000040).t0 = 0x10000040 ∧
    Cap.base c = (Cap.addr c).toNat ∧ ((Cap.addr c).toNat : Int) < Cap.top c ∧
    Cap.kind (Cap.far 3 7 1 0 4096 true true) = 3 := by
  refine ⟨clean_issues (by decide +kernel), ?_⟩; decide +kernel

theorem test_met_CapabilityInstructionFaults :
    (up.rd 0 1).tag = false ∧ Cap.kind (Cap.asDoor (ram 0)) = 1 ∧ Cap.kind (Cap.receipt 1 2 3) = 4 ∧
    Cap.has (ram 0) permSetBounds = true ∧ Cap.has Cap.null permExec = false ∧
    ((encodeBounds 0x10000FC0 0x10001001).t0 : Int) > Cap.top (Cap.withBounds (ram 0) (encodeBounds 0x10000000 0x10001000)) ∧
    (encodeBounds 0x10001234 (0x10001234 + 100000)).b0 ≠ 0x10001234 := by decide +kernel

/-! ## Premises: loads and stores -/

theorem test_reaches (k : AccKind) (n : Nat) (hn : n = 1 ∨ n = 64 ∨ n = 4096) (perms : List Nat) (hp : ∀ p ∈ perms, p < 6) :
    Reaches (hold (ram 0x1000)) 0 1 0x10001000 n perms k false where
  tag := by decide +kernel
  kind := by decide +kernel
  perm := by
    intro p h
    have : ∀ q : Fin 6, Cap.has ((hold (ram 0x1000)).rd 0 1) q.val = true := by decide +kernel
    exact this ⟨p, hp p h⟩
  bounds := by
    constructor
    · have : Cap.base ((hold (ram 0x1000)).rd 0 1) = 0 := by decide +kernel
      omega
    · have : Cap.top ((hold (ram 0x1000)).rd 0 1) = 2 ^ 64 := by decide +kernel
      rw [this]; omega
  exact := by decide
  plain := test_plain k n hn

theorem test_met_LoadsAndStores :
    Issues (before (hold (ram 0x1000))) 0 (hold (ram 0x1000)) ∧ (MemForm.off 0).bad 0 = false ∧ (MemForm.idx 2 3 false 0).bad 0 = false ∧
    (MemForm.off 0).ea (hold (ram 0x1000)) 0 1 = 0x10001000 ∧ (0x10001000 : Int) % 64 = 0 ∧
    ((hold (ram 0x1000)).rd 0 2).tag = false ∧ ((hold (ram 0x1000)).rd 0 1).tag = true ∧
    Cap.has ((hold (ram 0x1000)).rd 0 1) permGlobal = true ∧ ((hold (ram 0x1000)).stall 0).wptr < 16 ∧
    (∀ k : Fin 8, ((hold (ram 0x1000)).loadFrom 0 (BitVec.ofNat 3 k.val)).mem.latent = [] ∧
      ((hold (ram 0x1000)).loadFrom 0 (BitVec.ofNat 3 k.val)).mem.poisonGranules = []) :=
  ⟨clean_issues (by decide +kernel), by decide +kernel, by decide +kernel, by decide +kernel, by decide, by decide +kernel, by decide +kernel,
    by decide +kernel, by decide +kernel, by decide +kernel⟩

/-- A store that waits: at the first byte of Close SRAM, and a tagged one on its last granule. -/
theorem test_met_StoreBecomesVisible :
    let b : BufStore := { pa := 0x10000000, data := [1], tag := false, attr := 0, merged := false }
    let c : BufStore := { pa := 0x101FFFF0, data := List.replicate 16 1, tag := true, attr := 0, merged := false }
    let d : BufStore := { c with merged := true }
    let s := up.modStall 0 (fun t => { t with sbuf := [b, c, d] })
    (s.stall 0).sbuf = b :: [c, d] ∧ (∀ x, [c, d].head? = some x → x.merged = false) ∧ d.merged = true ∧ 0x10000000 ≤ b.pa.toNat ∧ 0 < b.data.length ∧ c.pa.toNat + c.data.length ≤ 0x10200000 ∧
    c.pa.toNat % 16 = 0 ∧ c.data.length = 16 := by decide +kernel

theorem test_met_AccessChecksInOrder :
    let s := hold (Cap.withBounds (ram 0x1000) (encodeBounds 0x10001000 0x10001010))
    let x : MemInstr := ⟨0, 2, 1, .off 0, 12, 16, 16, true, false⟩
    (Instr.stc 0 2 1 (.off 0)).access = some x ∧ x.bad = false ∧ Issues (before s) 0 s ∧ (s.rd 0 1).tag = true ∧ Cap.kind (s.rd 0 1) = 0 ∧
    Cap.has (s.rd 0 1) permStore = true ∧ Cap.has (s.rd 0 1) permStoreCap = true ∧ (s.rd 0 2).tag = false ∧
    Cap.base (s.rd 0 1) = (MemForm.off 0).ea s 0 1 ∧ (MemForm.off 0).ea s 0 1 + 16 = Cap.top (s.rd 0 1) ∧
    (MemForm.off (-1)).ea s 0 1 < Cap.base (s.rd 0 1) ∧ (MemForm.off 1).ea s 0 1 + 16 > Cap.top (s.rd 0 1) ∧
    (MemForm.off 8).ea s 0 1 % 16 ≠ 0 ∧ (up.rd 0 3).tag = false ∧ Cap.kind (Cap.asDoor (ram 0)) ≠ 0 ∧
    Cap.has (Cap.receipt 1 2 3) permStore = false := by
  refine ⟨by decide +kernel, by decide +kernel, clean_issues (by decide +kernel), ?_⟩; decide +kernel

/-- The Sacristy's RAM, its first and its last granule. -/
theorem test_met_SacristyRamLoadsAndStores :
    let s := up.wr 32 1 (Cap.setAddr Cap.bootRoot 0x100000)
    Issues s 32 s ∧ (MemForm.off 0).bad 32 = false ∧ (s.rd 32 1).tag = true ∧ Cap.kind (s.rd 32 1) = 0 ∧
    (∀ p ∈ [permLoad, permStore, permStoreCap], Cap.has (s.rd 32 1) p = true) ∧ (MemForm.off 0).ea s 32 1 = 0x100000 ∧
    Cap.base (s.rd 32 1) ≤ 0x100000 ∧ (0x140000 : Int) ≤ Cap.top (s.rd 32 1) ∧ (0x13FFF0 + 16 : Int) ≤ 0x140000 ∧
    0x13FFF0 % 4096 + 16 ≤ 4096 ∧ (s.rd 32 1).tag = true ∧ Cap.has (s.rd 32 1) permGlobal = true := by
  refine ⟨leads_issues (by decide +kernel), ?_⟩; decide +kernel

/-! ## Premises: control, windows and stalls -/

/-- Stall 0 in another condition. -/
def st0 (f : Stall → Stall) : State := (up.wr 0 1 (ram 0x1000)).modStall 0 f

theorem test_met_BranchesAndJumps :
    (0 : Reg) ≠ 1 ∧ (ram 0x1000).tag = true ∧ Cap.kind (ram 0x1000) = 0 ∧ (up.rd 0 1).tag = false ∧
    Cap.kind (Cap.asDoor (ram 0)) ≠ 0 := by decide +kernel

/-- ENTER with the last free window, LEAVE to the first; on both rings. -/
theorem test_met_EnterAndLeave :
    let s := (hold (Cap.asDoor (ram 0x1000))).modStall 0 (fun t => { t with wptr := 6, live := 15 })
    let l := (up.wr 0 23 (Cap.asDoor (ram 0x1000))).modStall 0 (fun t => { t with
      wptr := 9, live := 2, win := vset t.win 9 { Win.zero with p := vset Win.zero.p 7 (Cap.asDoor (ram 0)) } })
    Issues (before s) 0 s ∧ Issues (before l) 0 l ∧ ((s.rd 0 1).tag = true ∧ Cap.kind (s.rd 0 1) = 1 ∧ (s.stall 0).live < 16 ∧ (s.stall 0).wptr < 16 ∧
    1 ≤ (s.stall 0).live ∧ Cap.has (ram 0) permExec = true ∧ (l.rd 0 23).tag = true ∧ Cap.kind (l.rd 0 23) = 1 ∧
    1 < (l.stall 0).live ∧ (up.stall 32).live < 4) := by
  refine ⟨clean_issues (by decide +kernel), clean_issues (by decide +kernel), ?_⟩; decide +kernel

theorem test_met_CallsAndReturnsFault :
    let full := (up.wr 0 1 (Cap.asDoor (ram 0))).modStall 0 (fun t => { t with wptr := 15, live := 16 })
    let bare := up.wr 0 23 (Cap.asDoor (ram 0))
    let user := up.modStall 0 (fun t => { t with pcc := { t.pcc with bits := putBit t.pcc.bits (64 + permSys) false } })
    (Cap.kind (full.rd 0 1) = 1 ∧ (full.stall 0).live = 16 ∧ (bare.rd 0 23).tag = true ∧ Cap.kind (bare.rd 0 23) = 1 ∧
    (bare.stall 0).live = 1 ∧ 1 < Cap.kind (Cap.receipt 1 2 3) ∧ (user.stall 0).userMode = true ∧ (up.stall 0).userMode = false ∧
    (up.stall 0).tsbr.tag = false) ∧ Issues (before full) 0 full := by
  refine ⟨?_, clean_issues (by decide +kernel)⟩; decide +kernel

/-- STOW.LO with nine live windows and STOW.HI with sixteen; UNSTOW with eight and the save area that STOWP names. -/
theorem test_met_StowAndUnstow :
    let lo := st0 (fun t => { t with wptr := 8, live := 9 })
    let hi := st0 (fun t => { t with wptr := 7, live := 16 })
    let un := (st0 (fun t => { t with wptr := 15, live := 8, stowp := ram 0x1000 })).writeMem 0x10001010 [0]
    Issues (before lo) 0 lo ∧ (lo.stall 0).oldest = 0 ∧ (lo.stall 0).wptr / 8 ≠ 0 ∧ (hi.stall 0).oldest = 8 ∧ (hi.stall 0).wptr / 8 ≠ 1 ∧
    Issues (before un) 0 un ∧ (un.stall 0).live ≤ 8 ∧ (un.stall 0).sbuf = [] ∧ (un.stall 0).stowp.tag = true ∧ Cap.kind (un.stall 0).stowp = 0 ∧
    Cap.has (un.stall 0).stowp permLoad = true ∧ Cap.has (un.stall 0).stowp permLoadCap = true ∧
    Cap.inBounds (un.stall 0).stowp 0x10001000 2112 = true ∧ 1 - (un.stall 0).oldest / 8 = 0 ∧
    un.readMem 0x10001010 1 = [BitVec.ofNat 8 0] ∧ un.readMem 0x10001014 44 = List.replicate 44 0 ∧ (0x10001000 : Nat) % 64 = 0 := by
  refine ⟨clean_issues (by decide +kernel), by decide +kernel, by decide +kernel, by decide +kernel, by decide +kernel,
    clean_issues (by decide +kernel), ?_⟩; decide +kernel

theorem test_met_WaitAndYield :
    let s := (ints 6 0).modStall 0 (fun t => { t with evmask := 3, evpend := 2 })
    let q := (ints 1 0).modStall 0 (fun t => { t with evmask := 3, evpend := 2 })
    Issues (before s) 0 s ∧ (s.stall 0).evpend &&& s.rdInt 0 1 &&& (s.stall 0).evmask ≠ 0 ∧ (s.stall 0).wptr < 16 ∧
    q.rdInt 0 1 &&& (q.stall 0).evmask ≠ 0 ∧ (q.stall 0).evpend &&& q.rdInt 0 1 &&& (q.stall 0).evmask = 0 ∧
    up.rdInt 0 1 &&& (up.stall 0).evmask = 0 ∧ (up.stall 0).stepping = false ∧ (up.stall 0).state = .running := by
  refine ⟨clean_issues (by decide +kernel), ?_⟩; decide +kernel

/-- A state of NC3.ST7, the last stall, as the one named by a handle. -/
def named (x : StallState) : State := (hold (Cap.handle 31)).modStall 31 (fun t => { t with state := x })

theorem test_met_StallControl :
    (∀ x ∈ [StallState.off, .stopped, .running, .waiting, .halted, .ready, .far, .miss], ((named x).stall 31).state = x) ∧
    bits (Cap.addr ((named .off).rd 0 1)) 4 0 = 31 ∧ ((named .off).rd 0 1).tag = true ∧ Cap.kind ((named .off).rd 0 1) = 2 ∧
    (∀ p ∈ [permLoad, permStore, permStall], Cap.has ((named .off).rd 0 1) p = true) ∧ (named .off).enclosed 31 = false ∧
    (named .off).coreOut 3 = false ∧ (named .off).unitReady 3 = true ∧ (named .off).hasUnit 3 = true ∧
    (named .off).flag aPark 3 = false ∧ ((named .off).setReg (aLimit 56) 0).field (aLimit 56) 15 0 = 0 ∧
    (named .ready).inFence 31 = false ∧ bit (named .off).events.running 56 = false ∧
    ((named .off).stall 0).userMode = false ∧ ((named .off).setReg aEnclose 0x80000000).enclosed 31 = true ∧
    clean (named .off) 0 = true := by decide +kernel

theorem test_met_Squint :
    let s := up.modStall 0 (fun t => { t with squint := BitVec.ofNat 64 (7 * 4 + 3 + 24 * 512) })
    let w := (up.modStall 0 (fun t => { t with state := .far, squintReq := some { sel := 7 * 4, op := .inl 3, insn := 0 } })).modStall 7
      (fun t => { t with state := .running })
    clean s 0 = true ∧ bits (s.stall 0).squint 1 0 * 8 + bits (s.stall 0).squint 4 2 = 31 ∧ bits (s.stall 0).squint 15 14 = 0 ∧
    bits (s.stall 0).squint 13 9 = 24 ∧ s.enclosed 31 = false ∧ (s.stall 31).state = .off ∧ s.coreOut 3 = false ∧
    windowsLegal 31 (s.stall 31).wptr (s.stall 31).live = true ∧ bits (s.stall 0).squint 8 5 = (s.stall 31).wptr ∧
    sqStall (7 * 4) = 7 ∧ (w.stall 7).state = .running ∧ (w.sqRead (7 * 4) 7).isSome = true ∧ w.coreOut 0 = false ∧
    (w.stall 0).haltReq = none ∧ (w.stall 0).stopReq = false ∧ w.inFence 7 = false ∧ w.coreHeld 0 = false := by decide +kernel

/-- Two READY stalls of one core, the first and the last, at equal and at different priorities. -/
theorem test_met_SwitchPicksThePriority :
    let s := (up.modStall 0 (fun t => { t with state := .ready, prio := 2 })).modStall 7 (fun t => { t with state := .ready, prio := 2 })
    let r := up.modStall 7 (fun t => { t with state := .ready, prio := 7 })
    s.naveRuns = true ∧ s.coreDown 0 = false ∧ s.coreHeld 0 = false ∧ (s.core 0).fence = none ∧ (s.core 0).lastRan = 0 ∧
    (∀ k : Fin 8, (s.stall k.val).state ≠ .running ∧ (s.stall k.val).stepping = false ∧ (s.stall k.val).waitFor = none) ∧
    (7 + 15 - 0) % 8 < (0 + 15 - 0) % 8 ∧ (r.stall 0).state = .running ∧ (r.stall 0).prio.toNat < (r.stall 7).prio.toNat := by
  decide +kernel

theorem test_met_QuantumMissAndLimiter :
    let s := (up.setReg (aQuantum 0) 1).modStall 7 (fun t => { t with state := .ready })
    let m := up.modStall 0 (fun t => { t with state := .miss })
    let e := { up.setReg (aTarget 0) 1 with events := { up.events with running := 1, held := 1 } }
    let f := { up.setReg (aTarget 0) 1 with events := { up.events with running := 1 } }
    s.reg (aQuantum 0) ≠ 0 ∧ (s.stall 0).state = .running ∧ (s.stall 7).prio = (s.stall 0).prio ∧ (m.stall 0).state = .miss ∧
    (m.stall 0).haltReq = none ∧ e.naveRuns = true ∧ bit e.events.running 0 = true ∧ bit e.events.held 0 = true ∧ e.reg (aTarget 0) ≠ 0 ∧
    bit f.events.held 0 = false ∧ f.levelOn 0 = false ∧ s.coreHeld 0 = false ∧ m.coreHeld 0 = false ∧ (s.core 0).fence = none := by
  decide +kernel

theorem test_met_EventArrivesInItsTargets :
    let f : EvFlight := { n := 63, targets := 0x80000001 }
    let s := ({ up with events := { up.events with flight := [f] } }).modStall 31 (fun t => { t with
      state := .waiting, evmask := BitVec.allOnes 64, waitFor := some (3, BitVec.allOnes 64) })
    s.events.flight = f :: [] ∧ f.targets &&& coreMask 3 ≠ 0 ∧ s.hasUnit 3 = true ∧ s.flag aPark 3 = false ∧
    (s.stall 31).state = .waiting ∧ bit f.targets 31 = true ∧ s.coreHeld 3 = false := by decide +kernel

/-! ## Premises: exceptions and special registers -/

/-- NC0.ST0 with a save block in Close SRAM. -/
def tsb (sr : W32) : State := up.modStall 0 (fun t => { t with tsbr := ram 0x10000, sr := sr })

theorem test_tsb (f : Nat) (hf : f = 0 ∨ f = 1) : TsbPlain (tsb 6) 0 f where
  nave := by decide
  block := by decide +kernel
  close := by decide +kernel
  off := rfl
  settled := rfl
  admitted := by
    refine ⟨by decide +kernel, ?_⟩
    rcases hf with rfl | rfl <;> (rintro k (rfl | rfl) <;> decide +kernel)
  alone := holdsNothing (by decide +kernel) _ _
  sound := ⟨rfl, rfl⟩

/-- The unmasked levels at their edges, a masked level, and ML 7; a far fault that waits; an interrupt that is due. -/
theorem test_met_Exceptions :
    masks ((tsb 0).stall 0).sr (excLevel 20) = false ∧ masks ((tsb 5).stall 0).sr (excLevel 21) = false ∧
    masks ((tsb 6).stall 0).sr (excLevel 21) = true ∧ masks ((tsb 8).stall 0).sr (excLevel 21) = true ∧
    bits ((tsb 6).stall 0).sr 2 0 < 7 ∧ bits ((tsb 7).stall 0).sr 2 0 = 7 ∧ masks ((tsb 7).stall 0).sr (excLevel 21) = true ∧
    (tsb 0).enclosed 0 = false ∧ ((tsb 0).stall 0).wptr < 16 ∧ tsbOk (up.stall 0).tsbr = false := by decide +kernel

theorem test_met_InterruptAndFarOutcome :
    let s := ((tsb 0).setReg (aMode 54) 0x61).modStall 0 (fun t => { t with evmask := BitVec.allOnes 64, evpend := 0x40000000000000 })
    let f := up.modStall 0 (fun t => { t with outcome := some { vec := vFarBusy, n := 0, faddr := 0, insn := 0, detail := 0 } })
    s.running 0 = true ∧ (s.stall 0).outcome = none ∧ s.deliverable 0 54 = true ∧
    (∀ k : Fin 55, k ≠ 54 → s.deliverable 0 k.val = false) ∧ f.running 0 = true ∧ (f.stall 0).outcome.isSome = true ∧ Issues (before up) 0 up := by
  refine ⟨by decide +kernel, by decide +kernel, by decide +kernel, by decide +kernel, by decide +kernel, by decide +kernel,
    clean_issues (by decide +kernel)⟩

/-- An exception whose handler capability stands in the save block: the handler's first instruction issues. -/
def entered : State :=
  let t := ((tsb 0).writeMem 0x10010080 (toBytes 16 Cap.bootRoot.bits.toNat)).setTag 0x10010080 true
  t.settleExc 0 { vec := 21, n := 0, faddr := 0, insn := 0, detail := 0 }

theorem test_met_ReturnUndoesEntry :
    Issues (before entered) 0 entered ∧ (entered.stall 0).userMode = false ∧ ((tsb 0).stall 0).sr.toNat < 64 ∧
    windowsLegal 0 ((tsb 0).stall 0).wptr ((tsb 0).stall 0).live = true ∧ ((tsb 0).stall 0).sbuf = [] :=
  ⟨clean_issues (by decide +kernel), by decide +kernel, by decide +kernel, by decide +kernel, by decide +kernel⟩

theorem test_met_SpecialRegisters :
    let user := up.modStall 0 (fun t => { t with pcc := { t.pcc with bits := putBit t.pcc.bits (64 + permSys) false } })
    (user.stall 0).userMode = true ∧ (up.stall 0).userMode = false ∧ windowsLegal 0 15 16 = true ∧ windowsLegal 0 1 1 = false ∧
    windowsLegal 32 3 4 = true ∧ up.ring.node = none ∧ up.gateway = false ∧
    ({ up with ring := { up.ring with node := some 5 } } : State).ring.node = some 5 := by decide +kernel

/-! ## Premises: floating point, atomics, fences, grants -/

theorem test_met_FloatingPoint :
    (0 : Ctx).val < 32 ∧ ((3 : BitVec 3).toNat < 4) ∧ ((7 : BitVec 3).toNat = 7) ∧ bits (up.stall 0).fpcr 1 0 = 0 ∧
    (f32.round 0 false false 3 (-1)).flags = 0 ∧ (f64.round 3 false true 1 (-1074)).flags = 0 ∧ (FVal.fin false 1 0).snan = false := by decide +kernel

theorem test_met_AtomicsInCloseSram :
    let s := hold (ram 0x1000)
    (Cap.addr (s.rd 0 1)).toNat = 0x10001000 ∧ 0x10001000 % 16 = 0 ∧ 0x10001002 % 4 ≠ 0 ∧ (s.rd 0 2).tag = false ∧
    (BitVec.ofNat 64 (ofBytes ((s.beginReg 0).readMem 0x10001000 8)) : W64) = s.rdInt 0 2 ∧
    (BitVec.ofNat 64 (ofBytes ((s.beginReg 0).readMem 0x10001000 8)) : W64) ≠ s.rdInt 0 1 ∧ (s.beginReg 0).mem.latent = [] ∧
    (s.beginReg 0).mem.poisonGranules = [] := by decide +kernel

theorem test_met_FencesAndInvalidations :
    let q : XinvReq := { st := 0, id := 1, addr := some 0xFFFFFFFFF000 }
    let s := up.modCore 3 (fun c => { c with xinv := [q] })
    let f := up.modCore 0 (fun c => { c with fence := some (0, []) })
    Issues (before up) 0 up ∧ (up.stall 0).userMode = false ∧ (s.core 3).xinv = q :: [] ∧ q.addr = some 0xFFFFFFFFF000 ∧
    (0xFFFFFFFFF000 : W64).toNat < 2 ^ 48 ∧ (f.core 0).fence = some (0, []) ∧ s.holds92 (.core 3) = false ∧ f.holds92 (.core 0) = false :=
  ⟨clean_issues (by decide +kernel), by decide +kernel, by decide +kernel, by decide +kernel, by decide +kernel, by decide +kernel, by decide +kernel, by decide +kernel⟩

/-- GRANT of one granule under the last index of a small table, and its receipt. -/
def granting (c : Capv) (q : W64) : State :=
  let s := up.setPair (aRing 0x100) 0x10100000
  ((s.setReg (aRing 0x108) 0x100).wr 0 1 c).wr 0 2 (Cap.ofInt q)

theorem test_met_GrantsAndRevocations :
    let c := Cap.withBounds (ram 0x1000) (encodeBounds 0x10001000 0x10001010)
    let s := granting c (BitVec.ofNat 64 (5 + 256 + 512))
    let r := (granting (Cap.receipt 0 (granting c 0).grantEpoch 0) 0).writeMem (s.grantAddr 0 + 13) [1]
    clean s 0 = true ∧ (s.stall 0).userMode = false ∧ (s.stall 0).xlt = false ∧ 0 < s.grantCount ∧ 0x10000000 ≤ s.grantAddr 0 ∧
    s.grantAddr 0 + 16 ≤ 0x10200000 ∧ s.touchesSealed (s.grantAddr 0) 16 = false ∧ (s.rd 0 1).tag = true ∧ Cap.kind (s.rd 0 1) = 0 ∧
    Cap.has (s.rd 0 1) permGrant = true ∧ Cap.has (s.rd 0 1) permNoExport = false ∧ Cap.top (s.rd 0 1) - Cap.base (s.rd 0 1) = 16 ∧
    s.grantEn = true ∧ s.ring.node ≠ some 5 ∧ bits (s.rdInt 0 2) 31 16 = 0 ∧
    bits (BitVec.ofNat 64 (ofBytes (s.readMem (s.grantAddr 0 + 8) 8))) 41 40 = 0 ∧
    clean r 0 = true ∧ Cap.kind (r.rd 0 1) = 4 ∧ bits (Cap.addr (r.rd 0 1)) 63 48 = 0 ∧
    bits (Cap.addr (r.rd 0 1)) 47 40 = r.grantEpoch.toNat ∧ bits (Cap.addr (r.rd 0 1)) 39 32 = 0 ∧
    bits (BitVec.ofNat 64 (ofBytes (r.readMem (r.grantAddr 0 + 8) 8))) 41 40 = 1 := by decide +kernel

/-! ## Premises: registers, power, the Screen and memory -/

/-- An access of a register by NC0.ST0 meets nothing. -/
theorem regOpen {s : State} {a n : Nat} {k : AccKind}
    (h : s.mayAccess (.stall 0) n = true ∧ s.target a = .regs ∧ s.holds92 (islandOf a) = false ∧
      (s.rowBegin (.stall 0)).screen.old = [] ∧
      ((s.rowBegin (.stall 0)).screenDecide ((s.rowBegin (.stall 0)).whoIs (.stall 0)) a k).ok = true ∧
      (s.rowBegin (.stall 0)).busGate a n = .ok) : RegOpen s (.stall 0) a n k :=
  ⟨h.1, h.2.1, h.2.2.1, h.2.2.2.1, h.2.2.2.2.1, h.2.2.2.2.2⟩

theorem test_met_RegisterRows :
    RegOpen up (.stall 0) (aLimit 63) 4 .store ∧ RegOpen up (.stall 0) (aMode 54) 4 .store ∧
    RegOpen up (.stall 0) (aRing 0x100) 4 .store ∧ RegOpen up (.stall 0) (aRing 0x100) 8 .store ∧
    RegOpen up (.stall 0) (aLsio 0x90C) 4 .load ∧ (up.rowBegin (.stall 0)).reg aEnclose = 0 ∧
    (up.rowBegin (.stall 0)).grantEn = false ∧ AMap.get? (up.rowBegin (.stall 0)).holds (aRing 0x100) = none ∧
    (up.rowBegin (.stall 0)).fresh = [] ∧ bit ((up.hwSet aFall 4).freshBits aFall) 2 = true :=
  ⟨regOpen (by decide +kernel), regOpen (by decide +kernel), regOpen (by decide +kernel), regOpen (by decide +kernel),
    regOpen (by decide +kernel), by decide +kernel, by decide +kernel, by decide +kernel, by decide +kernel, by decide +kernel⟩

theorem test_met_SupplyAndReferences :
    1000 ≤ 1000 ∧ 99 < 100 ∧ up.power.navePhase ≠ .down ∧ (lit up).bankUp 3 = true ∧ up.bankUp 3 = false ∧ up.power.railsUp = true ∧ State.reset.power.railsUp = false ∧
    Rail.vsacCore ≠ Rail.vsacIo ∧ Rail.vbuck ∈ naveRails ∧ Rail.dramVddq ∈ naveRails ∧ up.power.boWait = false ∧ up.power.brownOut = false ∧ up.power.refGood = true ∧ up.sac.derate.shutdown = false ∧
    Island.timers ∈ ({ up.power with relocking := [.timers] } : Power).relocking := by decide +kernel

/-- A node as the cold start leaves it before a phase of the Sacristy and of the Nave. -/
def phase (p : SacPhase) (n : NavePhase) : State :=
  { State.reset with
    power := { State.reset.power with
      sacPhase := p, navePhase := n, vpre := true, vinOn := true, boWait := false, refGood := true, refJudged := true, extRstN := true,
      vinMv := 24000, budget := 1224 } }

theorem test_met_ColdStart :
    (phase .porHeld .down).power.sacPhase = .porHeld ∧ (phase .rom .down).power.vinOn = true ∧
    (phase .tested .down).power.sacPhase = .tested ∧ (phase .armed .down).power.sacPhase = .armed ∧
    (let s := { phase .running .down with straps := { bootsel := 2, role := false, testenN := true } }
     s.mayStart = true ∧ s.straps.bootsel = 2 ∧ s.sac.upd.startedOnce = false ∧ s.power.railsUp = false) ∧
    (let s := phase .running .verified
     s.power.railsUp = false ∧ s.railsMay = true ∧ s.power.extRstN = true ∧ s.admits = true ∧ s.fitsIn baseAllowance = true) ∧
    (let s := phase .running .base
     s.extHolds = false ∧ s.power.starting = none ∧ s.admits = true ∧ s.fits 0 = true) ∧
    (let s := { phase .running .running with power := { up.power with toStart := 0x4000 } }
     s.power.starting = none ∧ s.power.admitPaused = false ∧ s.naveRuns = true ∧ s.nextUnit = some 14 ∧ s.fits 14 = true ∧
     s.mem.mapFixed = false ∧ s.chip.dram[0] = some { dens := 2, ranks := 1, widthOk := true } ∧
     dramOk { dens := 2, ranks := 1, widthOk := true } = true ∧ dramOk { dens := 4, ranks := 2, widthOk := true } = false) ∧
    (let d : DramDevice := { dens := 0, ranks := 1, widthOk := true }
     let s := ({ up with mem := { up.mem with chan := Vector.replicate 2 { state := .training, dev := some d, temp := 0 } } }).setPair
       (aChBase 0) (BitVec.ofNat 64 aDram)
     (s.mem.chan[0]).state = .training ∧ (s.mem.chan[0]).dev = some d ∧ s.hasUnit 14 = true ∧
     s.pair (aChBase 0) = BitVec.ofNat 64 aDram ∧
     dramOk { dens := 0, ranks := 1, widthOk := true } = true ∧ dramOk { dens := 3, ranks := 2, widthOk := true } = true) := by
  decide +kernel

theorem test_met_AdmissionParkingAndResets :
    (let s := { up with power := { up.power with toStart := 0x4002 } }
     s.power.starting = none ∧ s.power.admitPaused = false ∧ s.used ≤ s.ledgerBudget ∧ s.naveRuns = true ∧ s.nextUnit = some 14 ∧
     s.fits 14 = true) ∧
    ((up.sealRule 0x10000000 1).sealedOk = true) ∧ State.reset.power.srefGood = true ∧
    (let s := { up with power := { up.power with starting := some 11, started := 0x802 } }
     s.power.starting = some 11 ∧ bit s.power.started 11 = true ∧ bit s.power.started 1 = true ∧ s.hasUnit 1 = true ∧ s.hasUnit 11 = true) ∧
    (let s := { phase .running .running with power := { up.power with started := 0x2 } }
     bit s.power.started 1 = true ∧ s.unitReady 1 = false) ∧
    up.naveRuns = true ∧ noPark 1 = false ∧ noPark 22 = false ∧ up.flag aPark 1 = false ∧ (up.setReg aPark 2).flag aPark 1 = true ∧
    bits (0x5AC70001 : W32) 31 16 = 0x5AC7 ∧ bit (0x5AC70001 : W32) 0 = true ∧ bits (0x5AC80001 : W32) 31 16 ≠ 0x5AC7 ∧
    up.power.sacPhase ≠ .porHeld ∧ up.power.sacPhase = .running ∧ (phase .inReset .down).power.sacPhase = .inReset ∧
    up.sac.wdFirst = false ∧ up.power.vigilArmed = true ∧ State.reset.power.vigilArmed = false ∧ up.used ≤ up.ledgerBudget := by decide +kernel

/-- Offsets of 1000 ns and of 1001 ns to either side. -/
theorem test_met_TownTime :
    let s := { up.setReg aTtCtrl 3 with straps := { up.straps with role := true }, tt := { up.tt with now := 1000000, inUse := true } }
    let w := { s with tt := { s.tt with setWait := some 5 } }
    let g := { up with straps := { up.straps with role := true } }
    s.naveRuns = true ∧ s.tmr.pending = false ∧ s.ttSrc = 3 ∧ s.tt.setWait = none ∧ w.tt.setWait = some 5 ∧ s.tt.inUse = true ∧
    ((1001001 : Int) - s.tt.now.toNat > 1000) ∧ ((998999 : Int) - s.tt.now.toNat < -1000) ∧ ((1001000 : Int) - s.tt.now.toNat ≤ 1000) ∧
    ((999000 : Int) - s.tt.now.toNat ≥ -1000) ∧ (up.setReg aTtCtrl 0x80).flag aTtCtrl 7 = true ∧ (up.setReg aTtStatus 4).ttValid = true ∧
    up.fw = true ∧ g.gateway = true ∧ (g.setReg aTtCtrl 0).ttSrc = 0 ∧ (g.setReg aTtCtrl 3).ttSrc = 3 ∧ up.gateway = false ∧
    (lit s).bankUp 3 = true ∧ s.bankUp 3 = false := by
  decide +kernel

theorem test_met_ScreenAndMemoryRows :
    let s := { up with screen := { up.screen with old := [(31, OldRule.mk 0 0 0 0 [])] } }
    let d := ({ up with mem := { up.mem with chan := Vector.replicate 2 { state := .ready, dev := none, temp := 0 } } }).setPair
      (aChSize 0) 0x40000000 |>.setPair (aChBase 0) (BitVec.ofNat 64 aDram)
    up.unitOpen 18 ∧ up.errorsAt 0x101FFFF0 = [] ∧ d.target (aDram + 0x3FFFFFC0) = .dram ∧ d.errorsAt (aDram + 0x3FFFFFC0) = [] ∧
    d.mem.latentTags = [] ∧ inCache d.caches.l2 ((aDram + 0x3FFFFFC0) / 64) = false ∧
    (∀ k ∈ linesOf 0x10000000 64, (up.sealRule 0x10000000 1).touchesSealed (64 * k) 64 = true) ∧
    scrMayWrite (up.whoIs (.stall 0)).cls = true ∧ up.ruleLocked 0 = false ∧
    (up.setReg (aScrAttr 31) 0x10000).ruleLocked 31 = true ∧ (∃ o, s.screen.old = ((31 : Fin 32).val, o) :: []) ∧
    ({ up.mem.chan[1] with state := .ready } : Chan).state = .ready := by
  refine ⟨by decide +kernel, by decide +kernel, by decide +kernel, by decide +kernel, by decide +kernel, by decide +kernel,
    by decide +kernel, by decide +kernel, by decide +kernel, by decide +kernel, ⟨_, rfl⟩, rfl⟩

/-! ## Premises: the ring and far access -/

/-- A node with the ID 5 and both ports and lanes in service. -/
def onRing : State :=
  let lane : Lane := { Lane.init with state := .inService, rate := 3, txKey := some { key := [], salt := [], counter := 0 },
                                      rxKey := some { key := [], salt := [], counter := 0 } }
  { up with
    power := { up.power with started := 0x7FFFFF, srefGood := true }
    ring := { up.ring with node := some 5, everMarked := true, lanes := Vector.replicate 4 lane,
                           ports := Vector.replicate 2 { RPort.init with failed := false } } }

/-- The same as a gateway. -/
def asGateway : State := { onRing with straps := { onRing.straps with role := true }, ring := { onRing.ring with bays := 10 } }

/-- Lane 3 in another condition. -/
def lane3 (f : Lane → Lane) : State := onRing.modLane 3 f

theorem test_met_RingLanes :
    ((lane3 (fun l => { l with state := .training })).laneOf 3).state = .training ∧ onRing.laneMayTrain 3 = true ∧ onRing.fw = true ∧
    (let s := lane3 (fun l => { l with state := .keyAgreement, peer := some 9 })
     (s.laneOf 3).state = .keyAgreement ∧ s.laneMayTrain 3 = true ∧ s.noProt 3 = false ∧ (s.laneOf 3).peer = some 9 ∧
     (s.laneOf 3).txKey.isSome = true ∧ (s.laneOf 3).rxKey.isSome = true ∧ s.hasUnit 7 = true ∧
     s.field (aLane 3 0) 1 0 ≠ 0 ∧ min (s.spanMax 1) (rateAllowed s.sac.derate.clocks.toNat) ≠ 0) ∧
    ((lane3 (fun l => { l with state := .waiting })).laneOf 3).state = .waiting ∧ (onRing.laneOf 3).prot = false ∧
    (onRing.laneOf 3).badRun < 7 ∧ ((lane3 (fun l => { l with badRun := 6 })).laneOf 3).badRun < 7 ∧
    ((lane3 (fun l => { l with badRun := 7 })).laneOf 3).badRun = 7 ∧ onRing.laneUp 3 = true ∧ onRing.ringOn = true ∧
    (lane3 (fun l => { l with state := .training })).bonded 1 = false ∧ onRing.bonded 1 = true ∧ (onRing.laneOf 3).measured = false ∧
    bits (3 : BitVec 16) 3 0 = 3 ∧ bit (3 : BitVec 16) 14 = false ∧ bit (3 : BitVec 16) 15 = false := by decide +kernel

theorem test_met_RingTopology :
    asGateway.ringOn = true ∧ asGateway.master = true ∧ asGateway.portUp 0 = true ∧ asGateway.ring.enumBusy = false ∧ 10 ≤ asGateway.ring.bays ∧
    asGateway.ring.times.head? ≠ some asGateway.bayTime ∧ asGateway.holds92 .ringSwitch = false ∧
    asGateway.flag (aRing 0x10) 8 = false ∧ onRing.master = false ∧ onRing.portDown 0 = false ∧ onRing.ring.stopped = false ∧
    onRing.ring.enumId = none ∧ (255 : BitVec 16).toNat ≤ 255 ∧ onRing.gateway = false ∧ onRing.ring.isolated = false ∧
    (let s := { onRing with ring := { onRing.ring with node := none, enumId := some none } }
     s.ring.node = none ∧ s.ring.enumId = some none ∧ s.ring.everMarked = true) ∧
    (let s := onRing.modPort 1 (fun p => { p with planned := true })
     (s.portOf 1).folded = false ∧ (s.portOf 1).planned = true) ∧
    (let s := (onRing.modPort 1 (fun p => { p with folded := true, planned := true })).modLane 3 (fun l => { l with delays := [5], goodRun := 4 })
     s.mayUnfold 1 = true ∧ (s.modLane 3 (fun l => { l with goodRun := 3 })).mayUnfold 1 = false) ∧
    ({ asGateway with ring := { asGateway.ring with assigned := [⟨7, 255⟩] } } : State).ring.assigned = [⟨7, 255⟩] := by decide +kernel

/-- A frame of class FAR from node 42 to node 9, its hop count the last that passes. -/
def passing : Frame := { shortFrame with cls := 3, dest := 9, src := 42, hops := 254 }

theorem test_met_RingFrames :
    passing.cls = 3 ∧ onRing.nodeNum ≠ some passing.dest.toNat ∧ onRing.nodeNum ≠ some passing.src.toNat ∧ onRing.portDown 1 = false ∧
    unitsOf (framesOf (vget (onRing.dir 1).transit 2 [])) + passing.units ≤ 4096 ∧ (onRing.dir 1).wicket = none ∧
    (let q : Queued := ⟨{ shortFrame with cls := 1 }, 0, 4⟩
     let r : Queued := ⟨{ shortFrame with cls := 1 }, 0, 4⟩
     let s := onRing.modDir 1 (fun d => { d with loc := vset d.loc 0 [q, r], markerAt := some 0 })
     vget (s.dir 1).loc 0 [] = q :: [r] ∧ q.ord ≤ r.ord ∧ (s.dir 1).wicket = none ∧ (s.dir 1).beacon = none ∧
     (∀ c : Fin 4, vget (s.dir 1).transit c.val [] = []) ∧ vget (s.dir 1).loc 1 [] = [] ∧ s.ring.ctrlTx = [] ∧
     s.ring.node.isSome = true ∧ s.quiet 1 q.frame = true ∧
     vget (s.dir 1).sent 0 0 = vget (s.dir 1).credited 0 0 ∧ q.frame.units ≤ 256) ∧
    (let cell := ([5, 1] : List (BitVec 8))
     onRing.ring.node = some 5 ∧ leField cell 2 1 % 2 = 0 ∧ leField ([5, 0, 1] : List (BitVec 8)) 2 1 % 2 = 1 ∧
     leField ([5, 0, 1] : List (BitVec 8)) 0 1 = 5 ∧ AMap.get? onRing.ring.safeLast 255 = none) ∧
    onRing.ring.ctrlTx.length < 16 ∧ onRing.holds92 .ringSwitch = false ∧
    (let x : Reliable := ⟨shortFrame, 8⟩
     ({ onRing with ring := { onRing.ring with reliable := [x] } } : State).ring.reliable = [x] ∧ x.resends = 8 ∧ x.frame.type ≠ 0x10) ∧
    (let s := (onRing.setPair (aRing 0x110) 0x10000000).setReg (aRing 0x118) 0x102
     s.flag (aRing 0x118) 8 = true ∧ (s.field (aRing 0x11C) 15 0 + 65536 - s.field (aRing 0x120) 15 0) % 65536 < 2 ^ s.field (aRing 0x118) 3 0 ∧
     (s.pair (aRing 0x110)).toNat = 0x10000000 ∧ s.touchesSealed 0x10000000 32 = false) := by decide +kernel

/-- A far load of 8 bytes that NC3.ST7 waits for, in a phase. -/
def farLoad (p : FarPhase) (busy : Nat) : FarOp :=
  { phase := p, node := 42, ea := 7, size := 8, store := none, dest := 3, sext := false, tseq := 1, busy := busy, queries := 0, insn := 0 }

/-- A response to it. -/
def answerTo (type : BitVec 8) : Frame :=
  { shortFrame with type := type, cls := 2, src := 42, dest := 5,
                    payload := toBytes 8 7 ++ [8, 31, 1, 0, 0, 0, 0, 0] ++ List.replicate 32 0 }

theorem test_met_FarTransactions :
    (let s := onRing.modStall 31 (fun t => { t with state := .far, farOp := some (farLoad .sent 7) })
     (s.stall 31).farOp = some (farLoad .sent 7) ∧ (s.stall 31).haltReq = none ∧ (s.stall 31).stopReq = false ∧ (s.stall 31).wptr < 16 ∧
     s.ringOn = true ∧ s.ring.farIn.length < 64) ∧
    (∀ ty ∈ [(3 : BitVec 8), 5, 6, 8], leField (answerTo ty).payload 9 1 = 31 ∧ farMatches (answerTo ty) (farLoad .sent 7) = true) ∧
    leField (answerTo 8).payload 11 1 = 0 ∧ (farLoad .sent 7).busy < 8 ∧ 8 ≤ (farLoad .sent 8).busy ∧ (farLoad .querying 0).phase = .querying ∧
    (farLoad .backoff 0).phase = .backoff ∧
    (let q := farReqOf (answerTo 1)
     let w := farReqOf (answerTo 2)
     q.isStore = false ∧ w.isStore = true ∧ onRing.ring.ledger = [] ∧ onRing.grantEn = false ∧
     (LedgerEntry.mk 0 31 1 .performed 0).is q = true ∧ (LedgerEntry.mk 0 31 1 .performed 0).tseq = q.tseq) := by decide +kernel

/-! ## Premises: tenant ports, cipher engine, Clerestory -/

/-- Tenant port 3 with its lane in service and node 5 as the destination of the high class. -/
def tenant : State :=
  { (onRing.setReg (aTp 3 0x4000) 0x00000501).setReg (aTp 3 0) 0x25800001 with
    tp := onRing.tp.map (fun t => { t with block := true, fecLock := true, lf := false }) }

theorem test_met_TenantPorts :
    tenant.tpOn 3 = true ∧ tenant.tpLink 3 = true ∧ bits (tenant.reg (aTp 3 (0x4000 + 4 * outerVid (List.replicate 60 0)))) 1 0 = 1 ∧
    64 ≤ (List.replicate 60 (0 : BitVec 8)).length + 4 ∧ etherType (List.replicate 60 0) ≠ 0x8808 ∧
    (List.replicate 59 (0 : BitVec 8)).length + 4 < 64 ∧ tenant.ring.node = some 5 ∧
    (tenant.tport 3).egressH = [] ∧ (tenant.tport 3).egressL = [] ∧ (tenant.tport 3).txd = none ∧ tenant.ringEn 3 true = false ∧
    ((tenant.setReg (aTp 3 (ringOff true + 8)) 0x100).setField (aTp 3 (ringOff true + 12)) 15 0 1).ringHeld 3 true ≠ 0 ∧
    tenant.unitOpen 11 ∧ tenant.hasUnit 11 = true ∧ (tenant.setReg aReady 0).unitReady 11 = false ∧ tenant.naveUp = true ∧
    ({ tenant with chip := { tenant.chip with variant := .hkw530 } } : State).hasUnit 11 = false ∧
    (let g := { tenant.setReg aTtCtrl 0x1A with straps := { tenant.straps with role := true } }
     g.gateway = true ∧ g.field aTtCtrl 1 0 = 2 ∧ g.field aTtCtrl 4 3 = 3 ∧ g.tmr.pending = false) ∧
    (1001 : BitVec 64).toInt > 1000 ∧ (1000 : BitVec 64).toInt ≤ 1000 ∧ (-1000 : BitVec 64).toInt ≥ -1000 ∧ (-1001 : BitVec 64).toInt < -1000 := by
  decide +kernel

/-- A job of slot 15: OP, bytes done, length; both buffers in Close SRAM. -/
def job (op done len : Nat) : JobState :=
  { desc := toBytes 16 0x10001000 ++ toBytes 16 0x10002000 ++ List.replicate 48 0 ++ [BitVec.ofNat 8 op, 0, 0, 0] ++ toBytes 4 0 ++ toBytes 8 len,
    caps := [true, true], key := List.replicate 32 0, aux := List.replicate 64 0, done := done, input := [], chain := List.replicate 16 0, yieldedAt := 0 }

/-- The engine at work on it. -/
def working (j : JobState) : State :=
  { up.setReg aScrDefault 0xFFFFFFFF with cph := { up.cph with
      running := some 15
      slots := vset up.cph.slots 15 { Slot.idleSlot with state := .running, job := some j } } }

theorem test_job_runs :
    JobRuns (working (job 0x41 0 65)) 15 (job 0x41 0 65) 0x41 ∧ JobRuns (working (job 0x10 64 64)) 15 (job 0x10 64 64) 0x10 ∧
    JobRuns (working (job 0x50 0 65)) 15 (job 0x50 0 65) 0x50 :=
  ⟨⟨by decide +kernel, by decide +kernel, by decide +kernel, by decide +kernel, by decide +kernel, by decide +kernel⟩,
    ⟨by decide +kernel, by decide +kernel, by decide +kernel, by decide +kernel, by decide +kernel, by decide +kernel⟩,
    ⟨by decide +kernel, by decide +kernel, by decide +kernel, by decide +kernel, by decide +kernel, by decide +kernel⟩⟩

theorem test_met_CipherJobs :
    (∀ op ∈ [0x01, 0x02, 0x03, 0x04, 0x05, 0x10, 0x11, 0x12, 0x20, 0x22, 0x30, 0x40, 0x41, 0x50],
      (job op 0 65).op = op ∧ (working (job op 0 65)).mustStop 15 (job op 0 65) = false) ∧
    (job 0x40 0 65).done % 64 = 0 ∧ (job 0x40 0 65).done + 64 < (job 0x40 0 65).len ∧ (job 0x40 64 64).done = (job 0x40 64 64).len ∧
    ((working (job 0x40 0 65)).dmaGet 5 ((job 0x40 0 65).at 0) 64).1.isOk = true ∧
    ((working (job 0x40 0 65)).dmaPut 5 ((job 0x40 0 65).at 1) (List.replicate 64 0) []).1 = none ∧
    (up.cslot 15).state = .idle ∧ up.cph.running = none ∧ up.cphBest = none ∧ (up.target (up.slotAddr 15)).isMem = false ∧
    ((working (job 0x40 0 65)).cslot 15).state = .running ∧
    (job 0x40 65536 65600).atQuantum = true ∧ ({ job 0x40 65536 65600 with yieldedAt := 65536 } : JobState).atQuantum = false ∧
    up.unitOpen 13 ∧ up.drbgWaits = false ∧ (working (job 0x40 0 65)).cph.entropyFail = false ∧
    (let s := { working (job 0x40 65536 65600) with cph := { (working (job 0x40 65536 65600)).cph with
       slots := vset (working (job 0x40 65536 65600)).cph.slots 0 { Slot.idleSlot with state := .queued, prio := 1 } } }
     s.cphWaiting (fun q => decide (0 < q)) = true ∧ (s.ctxGet 15).1 = none) ∧ up.sac.trngFail = false := by decide +kernel

/-- The Clerestory at work, both banks free, one zone. -/
def eye (run : Bool) (f : Clr → Clr) : State := { up with clr := f { up.clr with run := run } }

theorem test_met_ClerestoryCommands :
    (eye true id).holds92 .clerestory = false ∧ (eye true id).clr.run = true ∧ (eye true id).srcCamera = true ∧
    ((eye true id).setReg (aClr 0x10) 0x100000).srcCamera = false ∧
    (eye true id).clr.levelDue = none ∧ (eye true id).clr.swapDue = false ∧ (eye true id).clr.zonesDue = [] ∧ (eye true id).clr.homogDue = none ∧
    (eye true id).clr.camLost = false ∧ (0 : BitVec 2).toNat = (eye true id).clrF 0x10 17 16 ∧ (eye true id).partSize = true ∧
    ((eye false id).sealRule 0x1000000000 48).partSize = false ∧ ((eye false id).sealRule 0x1000000000 47).partSize = true ∧
    ((eye false id).setReg (aClr 0x18) 1).flag (aClr 0x18) 0 = true ∧ (eye false id).clr.run = false ∧
    (∀ b : Fin 2, (eye false id).bankState b.val ≠ .active ∧ (eye false id).bankState b.val ≠ .loading) ∧
    (let s := eye true (fun c => { c with banks := vset c.banks 1 { Bank.empty with state := .accepted, int8 := true }, swapDue := true })
     s.bankState (1 - s.clr.active.val) = .accepted ∧ s.clr.swapDue = true) ∧
    (let s := eye false (fun c => { c with banks := vset c.banks 1 { Bank.empty with state := .loading, len := 0x1000000 } })
     s.bankState 1 = .loading ∧ (s.bank 1).len ≤ 0x1000000) ∧
    (let s := { eye true (fun c => { c with periodStart := some 0 }) with tt := { up.tt with now := 3600000000000 } }
     s.clr.periodStart = some 0 ∧ (0 : BitVec 64).toNat < s.periodFloor.toNat ∧ s.flag (aClr 0x38) 8 = false) ∧
    (eye true (fun c => { c with periodStart := some 0 })).periodFloor.toNat ≤ (0 : BitVec 64).toNat ∧ (eye true id).clr.periodStart = none := by
  decide +kernel

/-! ## Premises: timers, the Sacristy, flash -/

/-- General timer 15 and lamp channel 7 in a state. -/
def timers (x : RunState) : State :=
  { up with tmr := { up.tmr with gt := vmod up.tmr.gt 15 (fun g => { g with state := x }), lp := vmod up.tmr.lp 7 (fun g => { g with state := x }) } }

/-- An edge detector that watches GPIO 31 for both edges, with k entries and a last capture 10 cycles ago. -/
def detector (k : Nat) : State :=
  { ((lit up).setReg (aEd 15 0) 0x31F).setReg (aEd 15 4) 10 with
    tt := { up.tt with now := 1000 }
    tmr := { up.tmr with cycles := 10, ed := vmod up.tmr.ed 15 (fun e => { e with last := some 0, fifo := List.replicate k ⟨true, 5⟩ }) } }

theorem test_met_TimersAndDali :
    (∀ x ∈ [RunState.stopped, .waiting, .running], ((timers x).gt 15).state = x ∧ ((timers x).lp 7).state = x) ∧
    up.unitOpen 17 ∧ (up.setReg aReady 0).unitReady 17 = false ∧ up.naveUp = true ∧ up.hasUnit 17 = true ∧ up.wset = [] ∧
    bit up.events.running 15 = false ∧ (timers .running).gtFrozen 15 = false ∧
    ((timers .running).setReg (aGt 15 0xC) 9).reg (aGt 15 0xC) = 9 ∧ bit (0x800000 : W32) (16 + 7) = true ∧ bit (0x8000 : W32) 15 = true ∧
    (let s := { up.setReg aTtStatus 0 with tmr := { up.tmr with pending := true } }
     s.tmr.pending = true ∧ s.flag (aTmr 0x3000) 3 = false ∧ (s.setReg (aTmr 0x3000) 8).flag (aTmr 0x3000) 3 = true ∧ s.ttValid = false ∧
     up.tmr.pending = false) ∧
    ((detector 3).ed 15).level ≠ true ∧ (detector 3).gpioPowered ((detector 3).field (aEd 15 0) 4 0) = true ∧
    (detector 3).flag (aEd 15 0) 8 = true ∧ ((detector 3).ed 15).fifo.length < 4 ∧ 4 ≤ ((detector 4).ed 15).fifo.length ∧
    (detector 3).field (aEd 15 4) 23 0 ≠ 0 ∧ (detector 3).tmr.cycles = 0 + (detector 3).field (aEd 15 4) 23 0 ∧
    (((detector 3).field (aEd 15 0) 23 16 + 2) * 10 ≤ (detector 3).tt.now.toNat) ∧
    bit (0x80000000 : W32) 31 = true ∧ up.dali.busy = false ∧ up.sac.mux.sacDali = true ∧
    ({ up.sac.mux with sacDali := false } : Mux).sacDali = false ∧ up.dali.fault = false ∧
    (let s := { up with dali := { up.dali with busy := true, ask := true, sacFrame := some 0xFEEB } }
     s.dali.busy = true ∧ s.dali.ask = true ∧ s.dali.sacFrame = some 0xFEEB) ∧ DaliEnd.noAnswer ≠ DaliEnd.sent := by decide +kernel

/-- Strings at the edges of their times. -/
def strings (f : StringSup → StringSup) : State :=
  { up with sac := { up.sac with safety := { up.sac.safety with str := up.sac.safety.str.map f } } }

/-- A slot of the Hatch that holds a request, the oldest rung. -/
def asked (i : Fin 16) (typ : Nat) (msg : List Byte) : State :=
  { up with hatch := { up.hatch with
      order := [i], tx := vset up.hatch.tx i.val (HSlot.mk56 typ 0x77 msg |> fun h => { h with full := true }) } }

theorem test_served : Served (asked 14 0x10 []) 14 0x10 ∧ Served (asked 0 0x58 []) 0 0x58 ∧ Served (asked 14 0x32 []) 14 0x32 :=
  ⟨⟨by decide +kernel, by decide, by decide +kernel, by decide +kernel, by decide +kernel⟩,
    ⟨by decide +kernel, by decide, by decide +kernel, by decide +kernel, by decide +kernel⟩,
    ⟨by decide +kernel, by decide, by decide +kernel, by decide +kernel, by decide +kernel⟩⟩

theorem test_met_SacristySupervision :
    up.fw = true ∧ (∃ y ∈ (strings (fun x => { x with openFor := 500 })).sac.safety.str.toList, 500 ≤ y.openFor) ∧
    (∀ y ∈ (strings (fun x => { x with hotFor := 499, hotClear := 3750000 })).sac.safety.str.toList, y.hotFor < 500 ∧ 3750000 ≤ y.hotClear) ∧
    State.reset.sac.mux.taken = true ∧ (∀ i : Fin 2, up.sac.sacTemp[i] < 1100) ∧
    (let s := { up with sac := { up.sac with ms := 3600005, derate := { up.sac.derate with shutdown := true, shutdowns := [3, 4, 5] } } }
     s.sac.derate.shutdown = true ∧ s.sac.derate.hotAt + 10000 ≤ s.sac.ms ∧ s.sac.derate.shutdowns.getLastD 0 + s.sac.derate.waitMs ≤ s.sac.ms) ∧
    up.sac.ms < up.sac.derate.shutdowns.getLastD 0 + 60000 ∧
    ({ up.sac.derate with vddTo := some 2 } : Derate).vddTo = some 2 ∧ up.unitReady 20 = true ∧ (up.setReg aReady 0).unitReady 20 = false ∧
    (up.txSlot 15).full = false ∧ up.hatch.order = [] ∧ (up.rxSlot 0).full = false ∧ knownService (asked 0 0x7777 []).hatch.order.length = true ∧
    ((asked 15 0x101 []).hatch.order.head? = some 15) ∧
    (let s := { up with hatch := { up.hatch with tx := vset up.hatch.tx 14 { HSlot.mk56 0x7777 5 [] with full := false },
                                                 rx := vset up.hatch.rx 14 (HSlot.mk56 0x8001 5 []), late := [(14, HSlot.empty)] } }
     (s.txSlot 14).full = false ∧ knownService (s.txSlot 14).type = false ∧ (s.rxSlot 14).full = true ∧ (s.txSlot 14).type < 0x8000 ∧
     s.hatch.late = (14, HSlot.empty) :: [] ∧ (∀ p ∈ s.hatch.late, p.1 ≠ 13)) ∧
    (let s := { up with sac := { up.sac with hb := { up.sac.hb with posted := [⟨5, 0, none⟩, ⟨6, 1, some true⟩], armed := true, missed := 1 } } }
     s.sac.hb.posted = ⟨5, 0, none⟩ :: [⟨6, 1, some true⟩] ∧ s.sac.hb.armed = true ∧ 1 ≤ s.sac.hb.missed ∧ s.naveRuns = true) ∧
    ({ up.sac.hb with grace := true } : Heartbeat).grace = true ∧ windowOk 0 96 = true ∧ windowOk 0xFFFF 96 = false ∧
    up.sac.trngFail = false ∧ up.sac.life = .field ∧ up.confNewest = none ∧ confLock up.sac.conf = false ∧
    ({ up with sac := { up.sac with nonce := some [1] } } : State).sac.nonce = some [1] := by decide +kernel

/-- Aisle 1 with a command under way. -/
def commanded (op : FlOp) (nave : Option (Fin 16 × BitVec 8)) : State :=
  up.modAisle 1 (fun f => { f with cmd := some { op := op, word := 262143, n := 1, data := [5], rest := [], nave := nave, mode := 0 } })

theorem test_met_FlashImagesAndCuts :
    (up.aisle 1).cmd = none ∧ 8 < 7 + 2 ∧ 7 + 1 ≤ 8 ∧ ((up.aisle 1).hdr 2047).incomplete = false ∧ (up.aisle 1).word 262143 = none ∧
    ((up.aisle 1).progs 262143 [5]).word 262143 ≠ none ∧
    ((up.aisle 1).progs 262143 [5]).word 262143 ≠ some (.programmed (up.pageWord 1 262143)) ∧
    ((up.aisle 1).progs 262143 [0]).word 262143 = some (.programmed (up.pageWord 1 262143)) ∧ ((commanded .program none).aisle 1).cmd.isSome = true ∧
    ((commanded .program none).aisle 1).susp = false ∧ ((commanded .program none).aisle 1).queue = [] ∧ up.sac.log.queue = [] ∧
    ((up.rxSlot 3).full = false ∧ (({ up with hatch := { up.hatch with rx := vset up.hatch.rx 3 (HSlot.mk56 0x8001 5 []) } } : State).rxSlot 3).full = true) ∧
    up.flBusy = false ∧ (commanded .program (some (3, 7))).flBusy = true ∧ up.sac.upd.staging = none ∧
    (0x3FF000 : Nat) % 4096 = 0 ∧ (up.aisle (regionAt 0x3FF000).1).mayErase ((regionAt 0x3FF000).2 / 4096) = true ∧
    (let s := up.setSlot (up.inactive 1) 1 .staged
     (s.slot (up.inactive 1) 1).state = .staged ∧ s.inactive 1 = up.inactive 1) ∧ up.svcUp = true ∧
    confIsnsMax up.sac.conf 0 = confIsnsMax up.sac.conf 0 ∧ up.runningImg 1 = none ∧ up.sac.upd.measured = false := by decide +kernel

/-! ## The boot ROM -/

/-- A boot descriptor of a payload of 8 bytes in the North slot, to be copied to a place in Close SRAM and entered at its byte 4. -/
def booted : State :=
  (({ up with power := { up.power with booting := true } } : State).modAisle 0 (fun f =>
    { f.prog ((slotBase 1 + 512) / 32) 0x8877665544332211 with weak := [(slotBase 1 + 512) / 32] })).winWrite 0xFB00
      (toBytes 8 (0x31000000 + slotBase 1 + 512) ++ toBytes 4 8 ++ toBytes 4 4 ++ toBytes 8 0x10000040 ++ List.replicate 40 0)

/-- R508: the copy and the entry; the next step changes neither. -/
theorem test_boot_rom :
    booted.bootRom.readMem 0x10000040 8 = toBytes 8 0x8877665544332211 ∧ (booted.bootRom.stall 0).pcc = Cap.setAddr Cap.bootRoot 0x10000044 ∧
    booted.bootRom.rd 0 0 = ram 0 ∧ booted.bootRom.power.booting = false ∧ booted.bootRom.bootRom = booted.bootRom := by decide +kernel

/-- R508: with no memory at LOAD the boot ROM waits; a word that cannot be read ends in lockdown, since TSBR is 0 (R245). -/
theorem test_boot_rom_waits_or_fails :
    ({ booted with regs := [] } : State).bootRom = { booted with regs := [] } ∧
    ((booted.modAisle 0 (fun f => { f with words := AMap.set f.words ((slotBase 1 + 512) / 32) .uncorrectable })).bootRom.stall 0).state =
      .lockdown := by decide +kernel

/-! ## Premises: serial ports and debug -/

theorem test_met_SerialPortsAndGpio :
    (up.i2c 2).queue.length < 16 ∧ ((up.modI2c 2 (fun q => { q with queue := List.replicate 16 (0, 0) })).i2c 2).queue.length = 16 ∧
    (up.i2c 2).rx.length < 16 ∧
    (let s := (up.setReg (aLsio 0x200) 1).modI2c 2 (fun q => { q with queue := [(4, 0)], busy := true })
     (s.i2c 2).queue = (4, 0) :: [] ∧ s.flag (aLsio (0x100 * 2)) 0 = true ∧ (s.i2c 2).busy = true) ∧
    (up.spi 1).tx.length < 32 ∧ (up.spi 1).rx.length < 32 ∧ (up.setReg (aLsio 0x500) 1).flag (aLsio 0x500) 0 = true ∧
    (up.uart 1).tx.length < 64 ∧ (up.uart 1).rx.length < 64 ∧ (up.uart 1).ctsN = true ∧ up.unitOpen 21 ∧ (lit up).bankUp 0 = true ∧
    up.bankUp 0 = false ∧ bit up.events.running 48 = false ∧
    (up.setReg (aLsio 0x900) 0xF).field (aLsio 0x900) 3 2 ≠ 0 ∧ bit up.lsio.gpioSeen 31 ≠ true ∧ (lit up).gpioPowered 31 = true ∧
    (lit up).scanDrive 55 = none ∧ (lit up).field (aLsio (0xC00 + 4 * 31)) 1 0 = 0 ∧
    { lit up with lsio := { up.lsio with gpioIn := putBit up.lsio.gpioIn 31 true } }.gpioLevel 31 = true ∧
    (up.setReg (aLsio (0xC00 + 4 * 31)) 0x3000).field (aLsio (0xC00 + 4 * 31)) 13 12 = 3 := by decide +kernel

/-- The debug gate open, boundary scan too, and DBG_SEL on a stall in a state. -/
def debugged (x : StallState) (h : StallState) : State :=
  { (lit up).modStall 31 (fun t => { t with state := x, haltedFrom := h }) with
    dbg := { up.dbg with gate := 3, sel := 31, maddr := 0x10000000 }, straps := { up.straps with testenN := true } }

theorem test_met_TestAndDebug :
    (debugged .running .ready).tapUp = true ∧ bit (debugged .running .ready).dbg.gate 1 = true ∧ State.reset.tapUp = false ∧
    (let s := { debugged .running .ready with tap := { up.tap with ir := .dbgXfer } }
     s.tapActs = .dbgXfer) ∧ (debugged .running .ready).unitReady 22 = true ∧ bit (debugged .running .ready).dbg.gate 0 = true ∧
    bit up.dbg.gate 0 = false ∧ (debugged .running .ready).dbgBarred 31 = false ∧ (debugged .running .ready).coreDown 3 = false ∧
    (∀ x ∈ [StallState.running, .ready, .far, .miss, .off, .lockdown, .halted, .waiting, .stopped],
      ((debugged x .ready).stall 31).state = x) ∧ ((debugged .halted .stopped).stall 31).haltedFrom = .stopped ∧
    ((debugged .halted .ready).setReg aEnclose 0x80000000).dbgBarred 31 = true ∧ (debugged .halted .ready).naveRuns = true ∧
    ((debugged .halted .ready).sqRead ((debugged .halted .ready).dbg.rsel.zeroExtend 64) 31).isSome = true ∧
    (debugged .halted .ready).dbg.maddr.toNat % 4 = 0 ∧ (debugged .halted .ready).screen.old = [] ∧
    ((debugged .halted .ready).setReg aScrDefault 0xFFFFFFFF |>.screenDecide (Who.dev 7) 0x10000000 .load).ok = true ∧
    ((debugged .halted .ready).setReg aScrDefault 0xFFFFFFFF |>.screenDecide (Who.dev 7) 0x101FFFFC .store).ok = true ∧
    (debugged .halted .ready).dbg.outFull = false ∧ (debugged .running .ready).inFence 31 = false ∧
    ((debugged .running .ready).modCore 3 (fun c => { c with fence := some (31, []) })).inFence 31 = true ∧ up.unitOpen 22 ∧
    bit up.events.running 52 = false ∧ up.mem.latent = [] ∧ up.mem.poisonGranules = [] := by decide +kernel

/-! ## Worked examples of the spec -/

/-- 04, worked example: the bounds of the counts and of the result table of Tannery Road, the window of the latter. -/
theorem test_bounds_of_tannery_road :
    encodeBounds 0x4000123A30 (0x4000123A30 + 0x2C0) = ⟨0, 0x3A30, 0x2C0, 0x4000123A30, 0x4000123CF0⟩ ∧
    encodeBounds 0x4001001234 (0x4001001234 + 100000) = ⟨4, 0x123, 0x186B, 0x4001001230, 0x40010198E0⟩ ∧
    (let c := Cap.make 0 0x153F 0 0x4000123B30 (encodeBounds 0x4000123A30 (0x4000123A30 + 0x2C0))
     Cap.base c = 0x4000123A30 ∧ Cap.top c = 0x4000123CF0) ∧
    (let c := Cap.make 0 0x153F 0 0x4001001234 (encodeBounds 0x4001001234 (0x4001001234 + 100000))
     Cap.base c = 0x4001001230 ∧ Cap.top c = 0x40010198E0 ∧ (Cap.setAddr c (0x4001001230 + 0x40000)).tag = false ∧
     (Cap.setAddr c 0x400103922F).tag = true ∧ (Cap.setAddr c 0x4001039230).tag = false ∧
     (Cap.setAddr c 0x4000FF9230).tag = true ∧ (Cap.setAddr c 0x4000FF922F).tag = false) := by decide +kernel

/-- 04, worked example: the far capability for entry 7 of node 42 in epoch 0x13, and after GEN has risen. -/
theorem test_grant_of_tannery_road :
    (let c := Cap.far 42 7 0x13 0 4096 true false
     Cap.base c = 0x0007130000000000 ∧ Cap.top c = 0x0007130000001000 ∧ c.bits.toNat / 2 ^ 64 % 65536 = 0x1941) ∧
    Cap.base (Cap.far 42 7 0x13 1 4096 true false) = 0x0007130100000000 := by decide +kernel

/-- 09, worked example: the leaf of the count log, PPN in bits [43:12] as the table of R259 places it (log 37). -/
theorem test_leaf_of_the_count_log :
    let p : W64 := 0x010200100234002F
    leafOk p 12 = true ∧ ptePa p = 0x01002340000 ∧ pteSize p = 16 ∧ pteKey p = 2 ∧ pteU p = true ∧
    leafFault Stall.init ⟨.store, true, false, true⟩ p = none ∧ keyOk 0 ⟨.store, true, false, true⟩ p = true ∧
    keyOk 0x20 ⟨.store, true, false, true⟩ p = false ∧ keyOk 0x20 ⟨.load, true, false, true⟩ p = true := by decide +kernel

/-- 10, worked example: rule 2 of Tannery Road, and the refusal of the second part of a split load by the sealed rule. -/
theorem test_screen_of_tannery_road :
    (∀ k : Fin 2, ∀ a ∈ [AccKind.load, .store, .fetch],
      rightsAdmit 0x2DB0FB k.val a = (a != .fetch || k.val == 1)) ∧
    rightsAdmit 0x2DB0FB 3 .load = false ∧ rightsAdmit 0x2DB0FB 7 .load = true ∧ rightsAdmit 0x2DB0FB 7 .store = false ∧
    (let s := (((up.sealRule 0x1080000000 48).setReg (aScrBase 2) 0x1000000).setReg (aScrLimit 2) 0x107FFFF).setReg (aScrRights 2) 0x2DB0FB
     (s.screenDecide (.core 0 false) 0x1080000000 .load).ok = false ∧
     (s.screenDecide (.core 0 false) 0x1080000000 .load).info 1 .load true = 0x1F0500 ∧
     (s.screenDecide (.core 0 false) 0x1082FFFFFF .load).rule = 31) := by decide +kernel

/-- 16, worked example: the dithered high time of 12,345 and 11 sixteenths. -/
theorem test_dimming_of_tannery_road :
    ((List.range 16).filter (fun k => decide (bitrev4 k < 197531 % 16))) = [0, 1, 2, 4, 5, 6, 8, 9, 10, 12, 14] ∧
    ((up.setReg (aLp 0 8) 197531).lpHigh 0) = 12346 := by decide +kernel

/-- 08, worked example: TRAP #0x041 in a state that masks nothing, and PAGE_NP while HOLD is still 1. -/
theorem test_system_call_that_escalates :
    let s := tsb 0
    let t := s.settleExc 0 { vec := 20, n := 0x041, faddr := 0, insn := 0, detail := 0 }
    let u := t.settleExc 0 { vec := 8, n := 0, faddr := 0x4000003000, insn := 0, detail := 0 }
    (t.stall 0).sr = 9 ∧ Cap.addr (t.stall 0).pcc = 0xFFFFFFFFF280 ∧ t.readMem 0x10010028 4 = toBytes 4 0x10410014 ∧
    t.readMem 0x10010030 4 = toBytes 4 0 ∧
    (u.stall 0).sr = 0xF ∧ Cap.addr (u.stall 0).pcc = 0xFFFFFFFFF7E0 ∧ u.readMem 0x10010068 4 = toBytes 4 0x3000083F ∧
    u.readMem 0x10010060 8 = toBytes 8 0x4000003000 ∧ u.readMem 0x10010070 4 = toBytes 4 9 ∧
    u.readMem 0x10010000 64 = t.readMem 0x10010000 64 := by decide +kernel

/-- Chapters 06 and 07: words written out field by field from their encoding tables spell the instructions they stand for. -/
theorem test_words_of_the_tables :
    insnOf 3 (0x01#6 ++ 5#5 ++ 6#5 ++ 7#5 ++ 1#1 ++ 0x001#10) = some (.sub 3 5 6 7 true) ∧
    insnOf 3 (0x08#6 ++ 1#5 ++ 2#5 ++ 0#7 ++ 1#1 ++ 2#2 ++ 9#6) = some (.srai 3 1 2 9 true 0) ∧
    insnOf 3 (0x16#6 ++ 4#5 ++ 9#5 ++ 0xFFF8#16) = some (.ld 3 4 9 (.off 0xFFF8)) ∧
    insnOf 3 (0x1F#6 ++ 4#5 ++ 9#5 ++ 10#5 ++ 0#4 ++ 1#1 ++ 3#2 ++ 11#4) = some (.sd 3 4 9 (.idx 10 3 true 0)) ∧
    insnOf 3 (0x24#6 ++ 1#5 ++ 2#5 ++ 3#3 ++ 0x1FFF#13) = some (.bge 3 1 2 0x1FFF) ∧
    insnOf 3 (0x25#6 ++ 31#5 ++ 0x100000#21) = some (.jl 3 31 0x100000) ∧
    insnOf 3 (0x3D#6 ++ 0#5 ++ 0#5 ++ 0#5 ++ 2#4 ++ 0x41#7) = some (.trap 3 0x041 0 0) ∧
    insnOf 3 (0x3D#6 ++ 7#5 ++ 0#5 ++ 0x12#5 ++ 0#4 ++ 0#7) = some (.mvspR 3 7 0 0x12 0) ∧ insnOf 3 0 = none :=
  ⟨rfl, rfl, rfl, rfl, rfl, rfl, rfl, rfl, rfl⟩

/-- R177: a word of the named forms spells no instruction exactly where it is reserved; at the reserved rows' edges. -/
theorem test_reserved_words :
    (insnOf 0 0x0400001E).isNone = reservedWord 0x0400001E ∧ (insnOf 0 0x04000013).isNone = reservedWord 0x04000013 ∧
    (insnOf 0 0x8000000E).isNone = reservedWord 0x8000000E ∧ (insnOf 0 0x8000000F).isNone = reservedWord 0x8000000F ∧
    (insnOf 0 0x9C000006).isNone = reservedWord 0x9C000006 ∧ (insnOf 0 0xC0000007).isNone = reservedWord 0xC0000007 ∧
    (insnOf 0 0xC800000F).isNone = reservedWord 0xC800000F ∧ (insnOf 0 0xE000000B).isNone = reservedWord 0xE000000B ∧
    (insnOf 0 0xF0000013).isNone = reservedWord 0xF0000013 ∧ (insnOf 0 0xF4000200).isNone = reservedWord 0xF4000200 := by decide +kernel
end Sys2Proof.Tests
end

/-!
# The integer instructions with a W form, branches and jumps (R177, R188, R189, R196 to R198)

What each operation answers at its corners, what an instruction of each family leaves, and the two statements from these.
-/
namespace Sys2Proof.Machine

/-! ## Operations on words of n bits (R189)

The corner results at every width, so that the 64-bit forms and the W forms share them. -/
section
variable {n : Nat} {x y : BitVec n}

theorem opDiv_of_ne_zero (hy : y ≠ 0) : opDiv x y = BitVec.ofInt n (x.toInt.tdiv y.toInt) := by
  refine (if_neg hy).trans (BitVec.eq_of_toInt_eq ?_)
  rw [BitVec.toInt_sdiv, BitVec.toInt_ofInt]

theorem opRem_of_ne_zero (hy : y ≠ 0) : opRem x y = BitVec.ofInt n (x.toInt.tmod y.toInt) := by
  refine (if_neg hy).trans ?_
  rw [← BitVec.toInt_srem, BitVec.ofInt_toInt]

theorem opDivu_of_ne_zero (hy : y ≠ 0) : opDivu x y = BitVec.ofNat n (x.toNat / y.toNat) :=
  (if_neg hy).trans BitVec.udiv_def

theorem opRemu_of_ne_zero (hy : y ≠ 0) : opRemu x y = BitVec.ofNat n (x.toNat % y.toNat) :=
  (if_neg hy).trans BitVec.umod_def

theorem opDiv_by_zero (hy : y = 0) : opDiv x y = BitVec.ofInt n (-1) := by
  refine (if_pos hy).trans ?_
  rw [← BitVec.neg_one_eq_allOnes, BitVec.neg_ofNat_eq_ofInt_neg]
  rfl

theorem opRem_by_zero (hy : y = 0) : opRem x y = x := if_pos hy

theorem opDivu_by_zero (hy : y = 0) : opDivu x y = BitVec.ofNat n (2 ^ n - 1) :=
  (if_pos hy).trans (BitVec.eq_of_toNat_eq (by simp))

theorem opRemu_by_zero (hy : y = 0) : opRemu x y = x := if_pos hy

/-- −1 divides every number, so it leaves no remainder. -/
theorem opRem_neg_one (hy : y.toInt = -1) : opRem x y = 0 := by
  have hy0 : y ≠ 0 := by rintro rfl; simp at hy
  rw [opRem_of_ne_zero hy0, hy, Int.tmod_neg, Int.tmod_one]
  rfl

/-- The quotient of the most negative number by −1 does not fit, and wraps to the dividend. -/
theorem opDiv_min_neg_one (hx : x.toInt = -2 ^ (n - 1)) (hy : y.toInt = -1) : opDiv x y = BitVec.ofInt n (-2 ^ (n - 1)) := by
  have hy0 : y ≠ 0 := by rintro rfl; simp at hy
  have hneg : BitVec.ofInt n (2 ^ (n - 1)) = -BitVec.intMin n := by
    rw [BitVec.intMin_eq_neg_two_pow, BitVec.ofInt_neg, BitVec.neg_neg]
  rw [opDiv_of_ne_zero hy0, hx, hy, Int.neg_tdiv_neg, Int.tdiv_one, hneg, BitVec.neg_intMin, BitVec.intMin_eq_neg_two_pow]

theorem opClz_zero (hx : x = 0) : opClz x y = BitVec.ofNat n n := congrArg (BitVec.ofNat n) (if_pos hx)

/-- No bit of 0 is set, so the search for the lowest one finds none. -/
theorem opCtz_zero (hx : x = 0) : opCtz x y = BitVec.ofNat n n := by
  have hnone : (List.range n).find? (fun k => x.getLsbD k) = none := by simp [hx]
  simp [opCtz, hnone]

/-- A difference wraps as the difference of the signed values does. -/
theorem sub_eq_ofInt (x y : BitVec n) : x - y = BitVec.ofInt n (x.toInt - y.toInt) :=
  BitVec.eq_of_toInt_eq (by rw [BitVec.toInt_sub, BitVec.toInt_ofInt])

end

/-! ## The instructions -/

/-- R177: a reserved form raises ILLEGAL with its word. -/
theorem issue_unlessIllegal_true {i : Nat} {w : W32} {body : State → Res Unit} {s t : State} (h : Issues s i t) :
    issue i w (unlessIllegal true body) s = .next (t.illegal i w) := issue_exc h rfl

section
variable {st : Ctx} {d a b : Reg} {one : Bool} {fn : Nat} {f : W64 → W64 → W64} {g : W32 → W32 → W32} {s t : State}

/-- R188: the 64-bit form of an integer instruction completes with the value of its operation. -/
theorem intW_long (h : Issues s st.val t) (hb : (one && b != 0) = false) {v : W64}
    (hv : f (t.rdInt st.val a) (t.rdInt st.val b) = v) :
    intW st d a b false fn one f g s = .next (t.doneInt st.val d v) := by
  subst hv
  refine issue_ok h ?_
  rw [hb]
  rfl

/-- R188: the W form completes with the value of the operation on the low 32 bits, sign-extended. -/
theorem intW_word (h : Issues s st.val t) (hb : (one && b != 0) = false) {v : W32}
    (hv : g ((t.rdInt st.val a).setWidth 32) ((t.rdInt st.val b).setWidth 32) = v) :
    intW st d a b true fn one f g s = .next (t.doneInt st.val d (v.signExtend 64)) := by
  subst hv
  refine issue_ok h ?_
  rw [hb]
  rfl

end

section
variable (st : Ctx) (d a b : Reg) (w : Bool) (s : State)

theorem exec_add : exec (.add st d a b w) s = intW st d a b w 0x0 false (· + ·) (· + ·) s := rfl
theorem exec_sub : exec (.sub st d a b w) s = intW st d a b w 0x1 false (· - ·) (· - ·) s := rfl
theorem exec_mul : exec (.mul st d a b w) s = intW st d a b w 0x10 false (· * ·) (· * ·) s := rfl
theorem exec_div : exec (.div st d a b w) s = intW st d a b w 0x14 false opDiv opDiv s := rfl
theorem exec_divu : exec (.divu st d a b w) s = intW st d a b w 0x15 false opDivu opDivu s := rfl
theorem exec_rem : exec (.rem st d a b w) s = intW st d a b w 0x16 false opRem opRem s := rfl
theorem exec_remu : exec (.remu st d a b w) s = intW st d a b w 0x17 false opRemu opRemu s := rfl
theorem exec_clz : exec (.clz st d a b w) s = intW st d a b w 0x18 true opClz opClz s := rfl
theorem exec_ctz : exec (.ctz st d a b w) s = intW st d a b w 0x19 true opCtz opCtz s := rfl

end

/-! ## R189 -/

/-- Settles O9: each clause is the value of an operation at 64 or at 32 bits, carried to its instruction. -/
theorem integerCorners : Obligations.IntegerCorners := by
  intro st d a b s t h i x y xw yw res resw
  refine ⟨fun hy => ⟨?_, ?_, ?_, ?_⟩, fun hy => ⟨?_, ?_, ?_, ?_⟩, fun hx hy => ⟨?_, ?_⟩, fun hx => ⟨?_, ?_⟩, ?_, ?_, ?_,
    fun hy => ⟨?_, ?_, ?_, ?_⟩, fun hx hy => ⟨?_, ?_⟩, fun hx => ⟨?_, ?_⟩, ?_, ?_, ?_⟩
  -- 64 bits: quotients and remainders
  · exact (exec_div ..).trans (intW_long h rfl (opDiv_of_ne_zero hy))
  · exact (exec_rem ..).trans (intW_long h rfl (opRem_of_ne_zero hy))
  · exact (exec_divu ..).trans (intW_long h rfl (opDivu_of_ne_zero hy))
  · exact (exec_remu ..).trans (intW_long h rfl (opRemu_of_ne_zero hy))
  · exact (exec_div ..).trans (intW_long h rfl (opDiv_by_zero hy))
  · exact (exec_rem ..).trans (intW_long h rfl (opRem_by_zero hy))
  · exact (exec_divu ..).trans (intW_long h rfl (opDivu_by_zero hy))
  · exact (exec_remu ..).trans (intW_long h rfl (opRemu_by_zero hy))
  · exact (exec_div ..).trans (intW_long h rfl (opDiv_min_neg_one hx hy))
  · exact (exec_rem ..).trans (intW_long h rfl (opRem_neg_one hy))
  -- 64 bits: counts of zeros, and results that wrap
  · exact (exec_clz ..).trans (intW_long h rfl (opClz_zero hx))
  · exact (exec_ctz ..).trans (intW_long h rfl (opCtz_zero hx))
  · exact (exec_add ..).trans (intW_long h rfl (BitVec.add_def _ _))
  · exact (exec_sub ..).trans (intW_long h rfl (sub_eq_ofInt _ _))
  · exact (exec_mul ..).trans (intW_long h rfl (BitVec.mul_def ..))
  -- W forms: quotients and remainders
  · exact (exec_div ..).trans (intW_word h rfl (opDiv_by_zero hy))
  · exact (exec_rem ..).trans (intW_word h rfl (opRem_by_zero hy))
  · exact (exec_divu ..).trans (intW_word h rfl (opDivu_by_zero hy))
  · exact (exec_remu ..).trans (intW_word h rfl (opRemu_by_zero hy))
  · exact (exec_div ..).trans (intW_word h rfl (opDiv_min_neg_one hx hy))
  · exact (exec_rem ..).trans (intW_word h rfl (opRem_neg_one hy))
  -- W forms: counts of zeros, and results that wrap
  · exact (exec_clz ..).trans (intW_word h rfl (opClz_zero hx))
  · exact (exec_ctz ..).trans (intW_word h rfl (opCtz_zero hx))
  · exact (exec_add ..).trans (intW_word h rfl (BitVec.add_def _ _))
  · exact (exec_sub ..).trans (intW_word h rfl (sub_eq_ofInt _ _))
  · exact (exec_mul ..).trans (intW_word h rfl (BitVec.mul_def ..))

/-! ## Branches and jumps (R196 to R198) -/

/-- The state after an instruction that moves PCC's cursor by a distance and ends. -/
def State.doneJump (t : State) (i : Nat) (k : W64) : State :=
  (t.modStall i (fun q => { q with pcc := Cap.setAddr q.pcc (Cap.addr q.pcc + k) })).boundary i

/-- An instruction whose body jumps by a distance from u completes in `u.doneJump`. -/
theorem issue_jumpBy {i : Nat} {w : W32} {body : State → Res Unit} {s t u : State} {k : W64} (h : Issues s i t)
    (hb : body t = u.jumpBy i k) : issue i w body s = .next (u.doneJump i k) := issue_ok h hb

section
variable {st : Ctx} {a b : Reg} {off : BitVec 13} {cond : Nat} {one : Bool} {f : Capv → Capv → Bool} {s t : State}

/-- R196: a branch whose condition has the value p jumps by 4 × OFF or goes on. -/
theorem branch_goes (h : Issues s st.val t) (hb : (one && b != 0) = false) {p : Bool} (hp : f (t.rd st.val a) (t.rd st.val b) = p) :
    branch st a b off cond one f s = .next (if p then t.doneJump st.val (off.signExtend 64 * 4) else t.doneOnly st.val) := by
  unfold branch
  rw [hb]
  cases p
  case true =>
    refine issue_jumpBy h ?_
    simp [unlessIllegal, hp, off13x4]
  case false =>
    refine issue_ok h ?_
    simp [unlessIllegal, hp, State.goOn]

/-- R177: a branch on one register whose B field is not 0 is reserved. -/
theorem branch_illegal (h : Issues s st.val t) (hb : b ≠ 0) :
    branch st a b off cond true f s = .next (t.illegal st.val (encB 0x24 a b cond off)) := by
  have hbad : (true && b != 0) = true := by simpa using hb
  unfold branch
  rw [hbad]
  exact issue_unlessIllegal_true h

end

/-- R197: JL writes the link, then jumps by 4 × IMM from PCC as it stood. -/
theorem exec_jl {st : Ctx} {d : Reg} {imm : BitVec 21} {s t : State} (h : Issues s st.val t) :
    exec (.jl st d imm) s = .next ((t.wr st.val d (Cap.setAddr (t.stall st.val).pcc (Cap.addr (t.stall st.val).pcc + 4))).doneJump
      st.val (imm.signExtend 64 * 4)) := by
  change execJl st d imm s = _
  unfold execJl
  exact issue_jumpBy h rfl

section
variable {st : Ctx} {a : Reg} {s t : State} (h : Issues s st.val t)
include h

/-- R197: JR to a capability of kind 0 makes it PCC. -/
theorem exec_jr_jumps (htag : (t.rd st.val a).tag = true) (hkind : Cap.kind (t.rd st.val a) = 0) :
    exec (.jr st 0 a 0) s = .next ((t.modStall st.val (fun q => { q with pcc := t.rd st.val a })).boundary st.val) := by
  refine issue_ok h ?_
  simp [unlessIllegal, htag, hkind]

/-- R197: JR to an untagged value raises TAG. -/
theorem exec_jr_untagged (htag : (t.rd st.val a).tag = false) :
    exec (.jr st 0 a 0) s = .next (t.raises st.val (encA 0x26 0 a 0 0) vTag 0 (a.toNat + 192)) := by
  refine issue_exc (x := excOf vTag 0 (a.toNat + 192)) h ?_
  simp [unlessIllegal, htag, State.failA, State.fail, capDetail]

/-- R197: JR to a capability of another kind raises KIND. -/
theorem exec_jr_kind (htag : (t.rd st.val a).tag = true) (hkind : Cap.kind (t.rd st.val a) ≠ 0) :
    exec (.jr st 0 a 0) s = .next (t.raises st.val (encA 0x26 0 a 0 0) vKind 0 (a.toNat + 192)) := by
  refine issue_exc (x := excOf vKind 0 (a.toNat + 192)) h ?_
  simp [unlessIllegal, htag, hkind, State.failA, State.fail, capDetail]

end

section
variable (st : Ctx) (a b : Reg) (off : BitVec 13) (s : State)

theorem exec_beq : exec (.beq st a b off) s = branch st a b off 0 false (fun x y => Cap.int x == Cap.int y) s := rfl
theorem exec_bne : exec (.bne st a b off) s = branch st a b off 1 false (fun x y => Cap.int x != Cap.int y) s := rfl
theorem exec_blt : exec (.blt st a b off) s = branch st a b off 2 false (fun x y => (Cap.int x).slt (Cap.int y)) s := rfl
theorem exec_bge : exec (.bge st a b off) s = branch st a b off 3 false (fun x y => !(Cap.int x).slt (Cap.int y)) s := rfl
theorem exec_bltu : exec (.bltu st a b off) s = branch st a b off 4 false (fun x y => (Cap.int x).ult (Cap.int y)) s := rfl
theorem exec_bgeu : exec (.bgeu st a b off) s = branch st a b off 5 false (fun x y => !(Cap.int x).ult (Cap.int y)) s := rfl
theorem exec_bt : exec (.bt st a b off) s = branch st a b off 6 true (fun x _ => x.tag) s := rfl
theorem exec_bnt : exec (.bnt st a b off) s = branch st a b off 7 true (fun x _ => !x.tag) s := rfl

end

theorem not_slt_eq_decide (x y : W64) : (!x.slt y) = decide (y.toInt ≤ x.toInt) := by
  rw [BitVec.slt_eq_decide, ← decide_not, decide_eq_decide, Int.not_lt]

theorem not_ult_eq_decide (x y : W64) : (!x.ult y) = decide (y.toNat ≤ x.toNat) := by
  rw [BitVec.ult_eq_decide, ← decide_not, decide_eq_decide, Nat.not_lt]

/-- Settles O23: the value of each branch's condition, and the rule of each jump. -/
theorem branchesAndJumps : Obligations.BranchesAndJumps := by
  intro st d a b off imm s t h i x y c pcc moved goes
  refine ⟨?_, ?_, ?_, ?_, ?_, ?_, ?_, ?_, fun hb => ⟨?_, ?_⟩, exec_jl h, exec_jr_jumps h, exec_jr_untagged h, exec_jr_kind h⟩
  · exact (exec_beq ..).trans (branch_goes h rfl rfl)
  · exact (exec_bne ..).trans (branch_goes h rfl decide_not.symm)
  · exact (exec_blt ..).trans (branch_goes h rfl BitVec.slt_eq_decide)
  · exact (exec_bge ..).trans (branch_goes h rfl (not_slt_eq_decide _ _))
  · exact (exec_bltu ..).trans (branch_goes h rfl BitVec.ult_eq_decide)
  · exact (exec_bgeu ..).trans (branch_goes h rfl (not_ult_eq_decide _ _))
  · exact (exec_bt ..).trans (branch_goes h rfl rfl)
  · exact (exec_bnt ..).trans (branch_goes h rfl rfl)
  · exact (exec_bt ..).trans (branch_illegal h hb)
  · exact (exec_bnt ..).trans (branch_illegal h hb)

end Sys2Proof.Machine

/-!
# Timers, lamp channels, edge detectors and DALI (R422 to R449)

First what the updates of registers leave in a register and in a bit of it, then a rule for each operation of the timer
block, then the statement from these.
-/
namespace Sys2Proof.Machine

/-! ## Bits of registers after the updates of R7 and R9 -/

theorem bits_or {n : Nat} (v w : BitVec n) (hi lo : Nat) : bits (v ||| w) hi lo = bits v hi lo ||| bits w hi lo := by
  apply Nat.eq_of_testBit_eq
  intro k
  rw [testBit_bits, Nat.testBit_or, testBit_bits, testBit_bits, BitVec.getLsbD_or, Bool.and_or_distrib_left]

section
variable (s : State) (a b i : Nat) (m : W32)

@[simp] theorem State.reg_hwSet : (s.hwSet a m).reg b = if b = a then s.reg a ||| m else s.reg b := s.reg_orReg a b m

@[simp] theorem State.reg_swSet : (s.swSet a m).reg b = if b = a then s.reg a ||| m else s.reg b := s.reg_orReg a b m

@[simp] theorem State.flag_setReg : (s.setReg a m).flag b i = if b = a then bit m i else s.flag b i := by
  simp only [State.flag, State.reg_setReg]
  split <;> rfl

@[simp] theorem State.flag_orReg : (s.orReg a m).flag b i = if b = a then s.flag a i || bit m i else s.flag b i := by
  by_cases h : b = a <;> simp [State.flag, bit, h]

@[simp] theorem State.flag_clrReg : (s.clrReg a m).flag b i = if b = a then s.flag a i && !bit m i else s.flag b i := by
  by_cases h : b = a
  · by_cases hi : i < 32
    · simp [State.flag, bit, h, hi]
    · simp [State.flag, bit, h, BitVec.getLsbD_of_ge _ _ (Nat.le_of_not_lt hi)]
  · simp [State.flag, h]

@[simp] theorem State.flag_hwSet : (s.hwSet a m).flag b i = if b = a then s.flag a i || bit m i else s.flag b i :=
  s.flag_orReg a b i m

@[simp] theorem State.flag_swSet : (s.swSet a m).flag b i = if b = a then s.flag a i || bit m i else s.flag b i :=
  s.flag_orReg a b i m

theorem State.testBit_field (hi lo k : Nat) : (s.field a hi lo).testBit k = (decide (k < hi + 1 - lo) && s.flag a (lo + k)) :=
  testBit_bits _ _ _ _

/-- R9: hardware clears some of the bits it means to clear, and all of them if software has set none in the same cycle. -/
theorem State.hwClear_clears : ∃ k : W32, (∀ i, bit m i = false → bit k i = false) ∧ (AMap.get? s.wset a = none → k = m) ∧
    ∀ b, (s.hwClear a m).reg b = (s.clrReg a k).reg b := by
  unfold State.hwClear
  dsimp only
  split
  case isTrue => exact ⟨m, fun _ h => h, fun _ => rfl, fun _ => rfl⟩
  case isFalse hhit =>
    refine ⟨_, fun i hi => ?_, fun hnone => ?_, fun _ => State.reg_congr rfl rfl rfl _⟩
    · unfold bit at hi ⊢
      split <;> simp [hi]
    · simp [hnone] at hhit

end

section
variable {s : State} {a b i : Nat} {m : W32}

@[simp] theorem State.reg_hwClear_of_ne (h : b ≠ a) : (s.hwClear a m).reg b = s.reg b := by
  obtain ⟨k, -, -, hk⟩ := s.hwClear_clears a m
  simp [hk, h]

@[simp] theorem State.flag_hwClear_of_ne (h : b ≠ a) : (s.hwClear a m).flag b i = s.flag b i :=
  congrArg (bit · i) (State.reg_hwClear_of_ne h)

theorem State.flag_hwClear_unmasked (h : bit m i = false) : (s.hwClear a m).flag a i = s.flag a i := by
  obtain ⟨k, hm, -, hk⟩ := s.hwClear_clears a m
  have hflag : (s.hwClear a m).flag a i = (s.clrReg a k).flag a i := congrArg (bit · i) (hk a)
  simp [hflag, hm i h]

theorem State.flag_hwClear_masked (hw : AMap.get? s.wset a = none) (h : bit m i = true) : (s.hwClear a m).flag a i = false := by
  obtain ⟨k, -, hnone, hk⟩ := s.hwClear_clears a m
  have hflag : (s.hwClear a m).flag a i = (s.clrReg a k).flag a i := congrArg (bit · i) (hk a)
  simp [hflag, hnone hw, h]

end

/-! ## Counting, and occurrences of events (R174, R249) -/

theorem setWidth_ushiftRight_append_setWidth (v : W64) : ((v >>> 32).setWidth 32 ++ v.setWidth 32 : BitVec 64) = v := by
  refine BitVec.eq_of_getLsbD_eq fun i hi => ?_
  rw [BitVec.getLsbD_append]
  by_cases h : i < 32
  · simp [h]
  · simp [h, show 32 + (i - 32) = i by omega, show i - 32 < 32 by omega]

/-- A counter counts one more. -/
theorem State.pair_count (s : State) (a : Nat) : (s.count a).pair a = s.pair a + 1 := by
  unfold State.count
  generalize s.pair a + BitVec.ofNat 64 1 = v
  simp [State.pair, setWidth_ushiftRight_append_setWidth]

theorem State.pair_congr {s t : State} {a : Nat} (h0 : t.reg a = s.reg a) (h4 : t.reg (a + 4) = s.reg (a + 4)) :
    t.pair a = s.pair a := by
  simp only [State.pair, h0, h4]

section
variable (s : State) (n b : Nat)

@[simp] theorem State.regs_deliver : (s.deliver n).regs = s.regs := by unfold State.deliver; dsimp only; split <;> split <;> rfl
@[simp] theorem State.tmr_deliver : (s.deliver n).tmr = s.tmr := by unfold State.deliver; dsimp only; split <;> split <;> rfl
@[simp] theorem State.straps_deliver : (s.deliver n).straps = s.straps := by unfold State.deliver; dsimp only; split <;> split <;> rfl
@[simp] theorem State.chip_deliver : (s.deliver n).chip = s.chip := by unfold State.deliver; dsimp only; split <;> split <;> rfl

theorem State.reg_deliver : (s.deliver n).reg b = s.reg b := State.reg_congr (by simp) (by simp) (by simp) b

/-- R174: what meets a limiter leaves the timer block as it was. -/
@[simp] theorem State.tmr_raise : (s.raise n).tmr = s.tmr := by
  unfold State.raise
  repeat' split
  all_goals simp

/-- R174: of all registers only the count of a limiter changes, which lies below the registers of the units. -/
theorem State.reg_raise (h : 0x20030000 ≤ b) : (s.raise n).reg b = s.reg b := by
  unfold State.raise
  split
  case isTrue => rfl
  case isFalse hn =>
    split
    case isTrue =>
      split
      case isTrue =>
        have h0 : b ≠ aLimited n := by unfold aLimited; omega
        have h4 : b ≠ aLimited n + 4 := by unfold aLimited; omega
        simp [State.count, h0, h4]
      case isFalse => rfl
    case isFalse =>
      split
      · exact s.reg_deliver n b
      · exact s.reg_deliver n b

end

/-- R174, R249: an occurrence that meets no running limiter sets out for its targets. -/
theorem State.raise_sets_out {s : State} {n : Nat} (hn : n < 55) (hrun : s.naveRuns = true) (hlim : bit s.events.running n = false)
    (ht : s.reg (aTarget n) ≠ 0) : ∃ e ∈ (s.raise n).events.flight, e.n = n ∧ e.targets = s.reg (aTarget n) := by
  have hphase : s.power.navePhase = .running := by simpa [State.naveRuns] using hrun
  have hdel : (s.deliver n).events.flight = s.events.flight ++ [{ n := n, targets := s.reg (aTarget n) }] := by
    have ht' : ¬ s.reg (aTarget n) = 0#32 := ht
    simp [State.deliver, hn, ht', hphase]
  have hraise : (s.raise n).events.flight = (s.deliver n).events.flight := by
    have hge : ¬ 55 ≤ n := by omega
    unfold State.raise
    simp only [hphase, hlim, ge_iff_le, hge, reduceCtorEq, or_self, if_false, Bool.false_eq_true]
    split <;> rfl
  exact ⟨{ n := n, targets := s.reg (aTarget n) }, by simp [hraise, hdel], rfl, rfl⟩

/-! ## Addresses of the timer block -/

section
variable (n j k : Nat)

@[simp] theorem aGt_inj : aGt n j = aGt n k ↔ j = k := by unfold aGt; omega
@[simp] theorem aLp_inj : aLp n j = aLp n k ↔ j = k := by unfold aLp; omega
@[simp] theorem aEd_inj : aEd n j = aEd n k ↔ j = k := by unfold aEd; omega
theorem le_aGt : 0x20030000 ≤ aGt n k := by unfold aGt; omega
theorem aEd_add : aEd n j + k = aEd n (j + k) := by unfold aEd; omega

end

/-! ## Updates within the page of one timer or lamp channel -/

/-- From s to u the registers outside the page at p stay, and so does all that the timer block holds besides registers. -/
structure OnlyPage (p : Nat) (s u : State) : Prop where
  /-- Every register outside the page. -/
  regs : ∀ b, (b < p ∨ p + 0x100 ≤ b) → u.reg b = s.reg b
  /-- States, counts and FIFOs. -/
  tmr : u.tmr = s.tmr

section
variable {p a : Nat} {s t u : State} {v : W32}

theorem OnlyPage.refl : OnlyPage p s s := ⟨fun _ _ => rfl, rfl⟩

theorem OnlyPage.trans (h : OnlyPage p s t) (k : OnlyPage p t u) : OnlyPage p s u :=
  ⟨fun b hb => (k.regs b hb).trans (h.regs b hb), k.tmr.trans h.tmr⟩

theorem OnlyPage.of_reg (ha : p ≤ a ∧ a < p + 0x100) (hr : ∀ b, b ≠ a → u.reg b = s.reg b) (ht : u.tmr = s.tmr) : OnlyPage p s u :=
  ⟨fun b hb => hr b (by omega), ht⟩

theorem OnlyPage.setReg (ha : p ≤ a ∧ a < p + 0x100) : OnlyPage p s (s.setReg a v) := .of_reg ha (fun b hb => by simp [hb]) rfl
theorem OnlyPage.orReg (ha : p ≤ a ∧ a < p + 0x100) : OnlyPage p s (s.orReg a v) := .of_reg ha (fun b hb => by simp [hb]) rfl
theorem OnlyPage.clrReg (ha : p ≤ a ∧ a < p + 0x100) : OnlyPage p s (s.clrReg a v) := .of_reg ha (fun b hb => by simp [hb]) rfl
theorem OnlyPage.hwSet (ha : p ≤ a ∧ a < p + 0x100) : OnlyPage p s (s.hwSet a v) := .of_reg ha (fun b hb => by simp [hb]) rfl
theorem OnlyPage.swSet (ha : p ≤ a ∧ a < p + 0x100) : OnlyPage p s (s.swSet a v) := .of_reg ha (fun b hb => by simp [hb]) rfl
theorem OnlyPage.hwClear (ha : p ≤ a ∧ a < p + 0x100) : OnlyPage p s (s.hwClear a v) :=
  .of_reg ha (fun _ hb => State.reg_hwClear_of_ne hb) (by simp)

end

theorem aGt_mem_page {n k : Nat} (h : k < 0x100) : aGt n 0 ≤ aGt n k ∧ aGt n k < aGt n 0 + 0x100 := by unfold aGt; omega
theorem aLp_mem_page {n k : Nat} (h : k < 0x100) : aLp n 0 ≤ aLp n k ∧ aLp n k < aLp n 0 + 0x100 := by unfold aLp; omega

/-! ## General timers (R422 to R427) -/

section
variable (s : State) (n m : Nat)

theorem State.gt_modGt (f : Gt → Gt) (h : n < 16) : (s.modGt n f).gt n = f (s.gt n) := by
  simp [State.gt, State.modGt, vget_vmod, h]
@[simp] theorem State.reg_modGt (f : Gt → Gt) (b : Nat) : (s.modGt n f).reg b = s.reg b := rfl
@[simp] theorem State.flag_modGt (f : Gt → Gt) (b i : Nat) : (s.modGt n f).flag b i = s.flag b i := rfl
@[simp] theorem State.gt_setReg (a : Nat) (v : W32) : (s.setReg a v).gt n = s.gt n := rfl
@[simp] theorem State.gt_hwSet (a : Nat) (v : W32) : (s.hwSet a v).gt n = s.gt n := rfl

theorem State.gt_congr {s t : State} (h : t.tmr = s.tmr) : t.gt n = s.gt n := by simp only [State.gt, h]
theorem State.lp_congr {s t : State} (h : t.tmr = s.tmr) : t.lp n = s.lp n := by simp only [State.lp, h]

/-- R426: a transfer writes the page of its timer only. -/
theorem State.gtTransfer_onlyPage : OnlyPage (aGt n 0) s (s.gtTransfer n) := by
  unfold State.gtTransfer
  exact ((((OnlyPage.setReg (aGt_mem_page (by decide))).trans (.setReg (aGt_mem_page (by decide)))).trans
    (.setReg (aGt_mem_page (by decide)))).trans (.hwClear (aGt_mem_page (by decide)))).trans (.hwSet (aGt_mem_page (by decide)))

@[simp] theorem State.gt_gtTransfer : (s.gtTransfer n).gt m = s.gt m := State.gt_congr m (s.gtTransfer_onlyPage n).tmr
@[simp] theorem State.events_gtTransfer : (s.gtTransfer n).events = s.events := by simp [State.gtTransfer]
@[simp] theorem State.power_gtTransfer : (s.gtTransfer n).power = s.power := by simp [State.gtTransfer]

/-- R426: period and compares take the shadows' values, and XFER is set. -/
theorem State.gtTransfer_copies : (s.gtTransfer n).reg (aGt n 0xC) = s.reg (aGt n 0x18) ∧
    (s.gtTransfer n).reg (aGt n 0x10) = s.reg (aGt n 0x1C) ∧ (s.gtTransfer n).reg (aGt n 0x14) = s.reg (aGt n 0x20) ∧
    (s.gtTransfer n).flag (aGt n 4) 8 = true := by
  refine ⟨?_, ?_, ?_, ?_⟩ <;> simp [State.gtTransfer, bit]

theorem State.reg_cnt_gtTransfer : (s.gtTransfer n).reg (aGt n 8) = s.reg (aGt n 8) := by simp [State.gtTransfer]

/-- R9, R426: ARM falls, unless software has set it in the same cycle. -/
theorem State.gtTransfer_disarms (h : AMap.get? s.wset (aGt n 0) = none) : (s.gtTransfer n).flag (aGt n 0) 2 = false := by
  simp only [State.gtTransfer, State.flag_hwSet, aGt_inj, OfNat.zero_ne_ofNat, if_false]
  exact State.flag_hwClear_masked (by simpa using h) rfl

/-- R426: no other bit of CTRL changes. -/
theorem State.ctrl_gtTransfer {i : Nat} (h : bit 4#32 i = false) :
    (s.gtTransfer n).flag (aGt n 0) i = s.flag (aGt n 0) i := by
  simp only [State.gtTransfer, State.flag_hwSet, aGt_inj, OfNat.zero_ne_ofNat, if_false]
  exact (State.flag_hwClear_unmasked h).trans (by simp)

end

/-- The count of a timer takes a value. -/
def State.gtCount (s : State) (n v : Nat) : State := (s.setReg (aGt n 8) (BitVec.ofNat 32 v)).modGt n (fun g => { g with presc := 0 })

/-- R422: a one-shot timer stops. -/
def State.gtOnce (s : State) (n : Nat) : State :=
  if s.flag (aGt n 0) 5 then (s.clrReg (aGt n 0) 1).modGt n (fun g => { g with state := .stopped }) else s

/-- R426, R427: the shadows of an armed timer that is not on hold are transferred. -/
def State.gtLoad (s : State) (n : Nat) : State := if s.flag (aGt n 0) 2 ∧ ¬ s.flag (aGt n 0) 3 then s.gtTransfer n else s

/-- The first half of `State.gtArrive`: the count takes its value, and a boundary loads the shadows and stops a one-shot timer. -/
def State.gtReload (s : State) (n v : Nat) (bd : Bool) : State :=
  let s := s.gtCount n v
  let s := if bd ∧ s.flag (aGt n 0) 2 ∧ ¬ s.flag (aGt n 0) 3 then s.gtTransfer n else s
  if bd ∧ s.flag (aGt n 0) 5 then (s.clrReg (aGt n 0) 1).modGt n (fun g => { g with state := .stopped }) else s

/-- R423: the count has come to compare k. -/
def State.gtHit (s : State) (n v k : Nat) : Bool :=
  decide (v = (s.reg (aGt n (0x10 + 4 * k))).toNat) && decide ((s.reg (aGt n (0x10 + 4 * k))).toNat ≤ (s.reg (aGt n 0xC)).toNat)

/-- The bits of TMR_GT_STATUS that a boundary and hits of the two compares set. -/
def gtEvents (bd h0 h1 : Bool) : Nat := bd.toNat + 2 * h0.toNat + 4 * h1.toNat

/-- The status bits and the source events of an arrival. -/
def State.gtMark (s : State) (n v : Nat) (bd : Bool) : State :=
  let t := s.hwSet (aGt n 4) (BitVec.ofNat 32 (gtEvents bd (s.gtHit n v 0) (s.gtHit n v 1)))
  let t := if bd then t.source n else t
  if s.gtHit n v 0 then t.source (0x10 + n) else t

/-- The second half of `State.gtArrive`: what it marks, and the event to the stalls. -/
def State.gtNotify (s : State) (n v : Nat) (bd : Bool) : State :=
  if (gtEvents bd (s.gtHit n v 0) (s.gtHit n v 1) &&& s.field (aGt n 0) 10 8) ≠ 0 then (s.gtMark n v bd).raise n else s.gtMark n v bd

theorem State.gtArrive_eq (s : State) (n v : Nat) (bd : Bool) : s.gtArrive n v bd = (s.gtReload n v bd).gtNotify n v bd := rfl

section
variable (s : State) (n m k v b : Nat) (bd : Bool)

@[simp] theorem State.reg_source : (s.source k).reg b = s.reg b := rfl
@[simp] theorem State.gt_source : (s.source k).gt m = s.gt m := rfl
@[simp] theorem State.events_source : (s.source k).events = s.events := rfl
@[simp] theorem State.power_source : (s.source k).power = s.power := rfl
@[simp] theorem State.ed_source : (s.source k).ed m = s.ed m := rfl
@[simp] theorem State.gt_raise : (s.raise k).gt m = s.gt m := State.gt_congr m (s.tmr_raise k)

@[simp] theorem State.gt_gtMark : (s.gtMark n v bd).gt m = s.gt m := by
  unfold State.gtMark
  split <;> split <;> simp

@[simp] theorem State.events_gtMark : (s.gtMark n v bd).events = s.events := by
  unfold State.gtMark
  split <;> split <;> simp

@[simp] theorem State.power_gtMark : (s.gtMark n v bd).power = s.power := by
  unfold State.gtMark
  split <;> split <;> simp

theorem State.reg_gtMark : (s.gtMark n v bd).reg b =
    (s.hwSet (aGt n 4) (BitVec.ofNat 32 (gtEvents bd (s.gtHit n v 0) (s.gtHit n v 1)))).reg b := by
  unfold State.gtMark
  split <;> split <;> simp only [State.reg_source]

@[simp] theorem State.gt_gtNotify : (s.gtNotify n v bd).gt m = s.gt m := by
  unfold State.gtNotify
  split <;> simp

theorem State.reg_gtNotify (hb : 0x20030000 ≤ b) : (s.gtNotify n v bd).reg b =
    (s.hwSet (aGt n 4) (BitVec.ofNat 32 (gtEvents bd (s.gtHit n v 0) (s.gtHit n v 1)))).reg b := by
  unfold State.gtNotify
  split
  · rw [State.reg_raise _ _ _ hb, State.reg_gtMark]
  · exact s.reg_gtMark n v b bd

/-- R422, R423: beyond the status bits no register of a timer changes. -/
theorem State.reg_gtNotify_of_ne (hk : k ≠ 4) : (s.gtNotify n v bd).reg (aGt n k) = s.reg (aGt n k) := by
  simp [s.reg_gtNotify n v _ bd (le_aGt n k), hk]

theorem State.flag_gtNotify_of_ne (hk : k ≠ 4) (i : Nat) : (s.gtNotify n v bd).flag (aGt n k) i = s.flag (aGt n k) i :=
  congrArg (bit · i) (s.reg_gtNotify_of_ne n k v bd hk)

/-- Which status bits an arrival sets. -/
theorem State.status_gtNotify (i : Nat) : (s.gtNotify n v bd).flag (aGt n 4) i =
    (s.flag (aGt n 4) i || bit (BitVec.ofNat 32 (gtEvents bd (s.gtHit n v 0) (s.gtHit n v 1))) i) := by
  have hflag := congrArg (bit · i) (s.reg_gtNotify n v _ bd (le_aGt n 4))
  exact hflag.trans ((s.flag_hwSet (aGt n 4) (aGt n 4) i _).trans (if_pos rfl))

end

theorem gtEvents_bits (bd h0 h1 : Bool) : bit (BitVec.ofNat 32 (gtEvents bd h0 h1)) 0 = bd ∧
    bit (BitVec.ofNat 32 (gtEvents bd h0 h1)) 1 = h0 ∧ bit (BitVec.ofNat 32 (gtEvents bd h0 h1)) 2 = h1 := by
  revert bd h0 h1
  decide

/-- A boundary's event is enabled by bit 0 of the mask. -/
theorem gtEvents_boundary_and (h0 h1 : Bool) {ie : Nat} (h : ie.testBit 0 = true) : gtEvents true h0 h1 &&& ie ≠ 0 := by
  have hbd : (gtEvents true h0 h1).testBit 0 = true := by
    revert h0 h1
    decide
  intro hz
  have hbit : (gtEvents true h0 h1 &&& ie).testBit 0 = false := by rw [hz, Nat.zero_testBit]
  rw [Nat.testBit_and, h, hbd] at hbit
  exact absurd hbit (by decide)

section
variable {s : State} {n v k : Nat}

theorem State.gtNotify_sets_out (hn : n < 55) (hrun : s.naveRuns = true) (hlim : bit s.events.running n = false)
    (ht : s.reg (aTarget n) ≠ 0) (hie : s.flag (aGt n 0) 8 = true) :
    ∃ e ∈ (s.gtNotify n v true).events.flight, e.n = n ∧ e.targets = s.reg (aTarget n) := by
  have hmask : gtEvents true (s.gtHit n v 0) (s.gtHit n v 1) &&& s.field (aGt n 0) 10 8 ≠ 0 :=
    gtEvents_boundary_and _ _ (by rw [State.testBit_field, hie]; rfl)
  have htarget : (s.gtMark n v true).reg (aTarget n) = s.reg (aTarget n) := by
    have hne : aTarget n ≠ aGt n 4 := by unfold aTarget aGt; omega
    simp [State.reg_gtMark, hne]
  unfold State.gtNotify
  rw [if_pos hmask, ← htarget]
  exact State.raise_sets_out hn (by simpa [State.naveRuns] using hrun) (by simpa using hlim) (by rwa [htarget])

end

section
variable (s : State) (n v k i : Nat)

@[simp] theorem State.reg_gtCount (b : Nat) : (s.gtCount n v).reg b = if b = aGt n 8 then BitVec.ofNat 32 v else s.reg b :=
  s.reg_setReg _ _ _
@[simp] theorem State.flag_gtCount (b : Nat) :
    (s.gtCount n v).flag b i = if b = aGt n 8 then bit (BitVec.ofNat 32 v) i else s.flag b i := s.flag_setReg _ _ _ _
@[simp] theorem State.events_gtCount : (s.gtCount n v).events = s.events := rfl
@[simp] theorem State.power_gtCount : (s.gtCount n v).power = s.power := rfl
theorem State.state_gtCount (h : n < 16) : ((s.gtCount n v).gt n).state = (s.gt n).state := by
  rw [State.gtCount, State.gt_modGt _ _ _ h, State.gt_setReg]

theorem State.reg_gtOnce_of_ne {b : Nat} (h : b ≠ aGt n 0) : (s.gtOnce n).reg b = s.reg b := by
  unfold State.gtOnce
  split <;> simp [h]

theorem State.flag_gtOnce_of_ne {b : Nat} (h : b ≠ aGt n 0) : (s.gtOnce n).flag b i = s.flag b i :=
  congrArg (bit · i) (s.reg_gtOnce_of_ne n h)

theorem State.ctrl_gtOnce (h : bit 1#32 i = false) : (s.gtOnce n).flag (aGt n 0) i = s.flag (aGt n 0) i := by
  unfold State.gtOnce
  split <;> simp [h]

@[simp] theorem State.events_gtOnce : (s.gtOnce n).events = s.events := by unfold State.gtOnce; split <;> rfl
@[simp] theorem State.power_gtOnce : (s.gtOnce n).power = s.power := by unfold State.gtOnce; split <;> rfl

theorem State.state_gtOnce (h : n < 16) :
    ((s.gtOnce n).gt n).state = if s.flag (aGt n 0) 5 then .stopped else (s.gt n).state := by
  unfold State.gtOnce
  split
  · rw [State.gt_modGt _ _ _ h]
  · rfl

end

/-! ### The period boundary and the compares -/

section
variable {s : State} {n v k i b : Nat}

theorem State.gtReload_boundary : s.gtReload n v true = ((s.gtCount n v).gtLoad n).gtOnce n := by
  simp [State.gtReload, State.gtLoad, State.gtOnce]

theorem State.gtReload_inside : s.gtReload n v false = s.gtCount n v := by simp [State.gtReload]

theorem State.gtLoad_of_armed (h : s.flag (aGt n 0) 2 = true ∧ s.flag (aGt n 0) 3 = false) : s.gtLoad n = s.gtTransfer n :=
  if_pos (by simpa using h)

theorem State.gtLoad_of_not_armed (h : ¬ (s.flag (aGt n 0) 2 = true ∧ s.flag (aGt n 0) 3 = false)) : s.gtLoad n = s :=
  if_neg (by simpa using h)

/-- A load is a transfer or nothing. -/
theorem State.gtLoad_cases {P : State → Prop} (ht : P (s.gtTransfer n)) (hs : P s) : P (s.gtLoad n) := by
  unfold State.gtLoad
  split
  · exact ht
  · exact hs

theorem State.gt_gtLoad (m : Nat) : (s.gtLoad n).gt m = s.gt m := State.gtLoad_cases (P := fun u => u.gt m = s.gt m) (by simp) rfl
theorem State.events_gtLoad : (s.gtLoad n).events = s.events := State.gtLoad_cases (P := fun u => u.events = s.events) (by simp) rfl
theorem State.power_gtLoad : (s.gtLoad n).power = s.power := State.gtLoad_cases (P := fun u => u.power = s.power) (by simp) rfl
theorem State.gtLoad_onlyPage : OnlyPage (aGt n 0) s (s.gtLoad n) := State.gtLoad_cases (s.gtTransfer_onlyPage n) .refl
theorem State.reg_cnt_gtLoad : (s.gtLoad n).reg (aGt n 8) = s.reg (aGt n 8) :=
  State.gtLoad_cases (P := fun u => u.reg (aGt n 8) = s.reg (aGt n 8)) (s.reg_cnt_gtTransfer n) rfl
theorem State.ctrl_gtLoad (h : bit 4#32 i = false) : (s.gtLoad n).flag (aGt n 0) i = s.flag (aGt n 0) i :=
  State.gtLoad_cases (P := fun u => u.flag (aGt n 0) i = s.flag (aGt n 0) i) (s.ctrl_gtTransfer n h) rfl

/-- R422: a boundary leaves every register of the timer but the status as the load leaves it, and EN of CTRL. -/
theorem State.reg_boundary (h0 : k ≠ 0) (h4 : k ≠ 4) :
    (s.gtArrive n v true).reg (aGt n k) = ((s.gtCount n v).gtLoad n).reg (aGt n k) := by
  rw [State.gtArrive_eq, State.reg_gtNotify_of_ne _ _ _ _ _ h4, State.gtReload_boundary,
    State.reg_gtOnce_of_ne _ _ (by simpa using h0)]

theorem State.ctrl_boundary (h : bit 1#32 i = false) :
    (s.gtArrive n v true).flag (aGt n 0) i = ((s.gtCount n v).gtLoad n).flag (aGt n 0) i := by
  rw [State.gtArrive_eq, State.flag_gtNotify_of_ne _ _ _ _ _ (by decide), State.gtReload_boundary, State.ctrl_gtOnce _ _ _ h]

/-- R422: the count starts again. -/
theorem State.boundary_count : (s.gtArrive n 0 true).reg (aGt n 8) = 0 := by
  rw [State.reg_boundary (by decide) (by decide), State.reg_cnt_gtLoad]
  simp

/-- R424: the boundary is in the status. -/
theorem State.boundary_status : (s.gtArrive n v true).flag (aGt n 4) 0 = true := by
  obtain ⟨hbd, -, -⟩ := gtEvents_bits true ((s.gtReload n v true).gtHit n v 0) ((s.gtReload n v true).gtHit n v 1)
  rw [State.gtArrive_eq, State.status_gtNotify, hbd, Bool.or_true]

/-- R426: an armed timer has the values of its shadows from the boundary on. -/
theorem State.boundary_of_armed (h : s.flag (aGt n 0) 2 = true ∧ s.flag (aGt n 0) 3 = false) :
    (s.gtArrive n v true).reg (aGt n 0xC) = s.reg (aGt n 0x18) ∧ (s.gtArrive n v true).reg (aGt n 0x10) = s.reg (aGt n 0x1C) ∧
      (AMap.get? s.wset (aGt n 0) = none → (s.gtArrive n v true).flag (aGt n 0) 2 = false) ∧
      (s.gtArrive n v true).flag (aGt n 4) 8 = true := by
  have hload : (s.gtCount n v).gtLoad n = (s.gtCount n v).gtTransfer n := State.gtLoad_of_armed (by simpa using h)
  obtain ⟨hper, hcmp, -, hxfer⟩ := (s.gtCount n v).gtTransfer_copies n
  refine ⟨?_, ?_, fun hw => ?_, ?_⟩
  · rw [State.reg_boundary (by decide) (by decide), hload, hper]
    simp
  · rw [State.reg_boundary (by decide) (by decide), hload, hcmp]
    simp
  · rw [State.ctrl_boundary (by decide), hload]
    exact State.gtTransfer_disarms _ _ hw
  · rw [State.gtArrive_eq, State.status_gtNotify, State.gtReload_boundary, State.flag_gtOnce_of_ne _ _ _ (by simp), hload, hxfer,
      Bool.true_or]

/-- R426: the period of a timer that is not armed, and its ARM, stay. -/
theorem State.boundary_of_not_armed (h : ¬ (s.flag (aGt n 0) 2 = true ∧ s.flag (aGt n 0) 3 = false)) :
    (s.gtArrive n v true).reg (aGt n 0xC) = s.reg (aGt n 0xC) ∧
      (s.gtArrive n v true).flag (aGt n 0) 2 = s.flag (aGt n 0) 2 := by
  have hload : (s.gtCount n v).gtLoad n = s.gtCount n v := State.gtLoad_of_not_armed (by simpa using h)
  rw [State.reg_boundary (by decide) (by decide), State.ctrl_boundary (by decide), hload]
  simp

/-- R422: a boundary stops a one-shot timer. -/
theorem State.boundary_state (hn : n < 16) :
    ((s.gtArrive n v true).gt n).state = if s.flag (aGt n 0) 5 then .stopped else (s.gt n).state := by
  rw [State.gtArrive_eq, State.gt_gtNotify, State.gtReload_boundary, State.state_gtOnce _ _ hn, State.ctrl_gtLoad (by decide),
    State.gt_gtLoad, State.state_gtCount _ _ _ hn]
  simp

/-- R424, R249: the event of a boundary that is enabled sets out. -/
theorem State.boundary_sets_out (hn : n < 16) (hie : s.flag (aGt n 0) 8 = true) (hlim : bit s.events.running n = false)
    (ht : s.reg (aTarget n) ≠ 0) (hrun : s.naveRuns = true) :
    ∃ e ∈ (s.gtArrive n v true).events.flight, e.n = n ∧ e.targets = s.reg (aTarget n) := by
  have hout : aTarget n < aGt n 0 := by unfold aTarget aGt; omega
  have htarget : (s.gtReload n v true).reg (aTarget n) = s.reg (aTarget n) := by
    have h8 : aTarget n ≠ aGt n 8 := by unfold aTarget aGt; omega
    rw [State.gtReload_boundary, State.reg_gtOnce_of_ne _ _ (by omega), State.gtLoad_onlyPage.regs _ (.inl hout)]
    simp [h8]
  have hpower : (s.gtReload n v true).power = s.power := by rw [State.gtReload_boundary]; simp [State.power_gtLoad]
  have hevents : (s.gtReload n v true).events = s.events := by rw [State.gtReload_boundary]; simp [State.events_gtLoad]
  have hctrl : (s.gtReload n v true).flag (aGt n 0) 8 = true := by
    rw [State.gtReload_boundary, State.ctrl_gtOnce _ _ _ (by decide), State.ctrl_gtLoad (by decide)]
    simpa using hie
  rw [State.gtArrive_eq, ← htarget]
  exact State.gtNotify_sets_out (by omega) (by rwa [State.naveRuns, hpower]) (by rwa [hevents]) (by rwa [htarget]) hctrl

/-- R423: the count comes to compare k, which is in the status; the period stays. -/
theorem State.compare_arrives (k : Fin 2) (hv : v = (s.reg (aGt n (0x10 + 4 * k.val))).toNat)
    (hle : v ≤ (s.reg (aGt n 0xC)).toNat) :
    (s.gtArrive n v false).reg (aGt n 8) = s.reg (aGt n (0x10 + 4 * k.val)) ∧
      (s.gtArrive n v false).flag (aGt n 4) (1 + k.val) = true ∧ (s.gtArrive n v false).reg (aGt n 0xC) = s.reg (aGt n 0xC) := by
  have hcmp : 0x10 + 4 * k.val ≠ 8 := by omega
  have hhit : (s.gtCount n v).gtHit n v k.val = true := by simp [State.gtHit, hcmp, ← hv, hle]
  rw [State.gtArrive_eq, State.gtReload_inside]
  refine ⟨?_, ?_, ?_⟩
  · rw [State.reg_gtNotify_of_ne _ _ _ _ _ (by decide), hv]
    simp
  · obtain ⟨-, h1, h2⟩ := gtEvents_bits false ((s.gtCount n v).gtHit n v 0) ((s.gtCount n v).gtHit n v 1)
    rw [State.status_gtNotify, Bool.or_eq_true_iff]
    match k, hhit with
    | 0, hhit => exact .inr (h1.trans hhit)
    | 1, hhit => exact .inr (h2.trans hhit)
  · rw [State.reg_gtNotify_of_ne _ _ _ _ _ (by decide)]
    simp

end

/-! ### EN and ARM -/

section
variable {s : State} {n : Nat}

/-- R425: EN starts a stopped timer; its count stays. -/
theorem State.gtEnable_of_stopped (hn : n < 16) (h : (s.gt n).state = .stopped) :
    (s.gtEnable n).flag (aGt n 0) 0 = true ∧
      ((s.gtEnable n).gt n).state = (if s.flag (aGt n 0) 1 = true ∨ s.slaveMode n = 4 then .waiting else .running) ∧
      (s.gtEnable n).reg (aGt n 8) = s.reg (aGt n 8) := by
  have htrig : ∀ hi lo, (s.orReg (aGt n 0) 1).field (aGt n 0x24) hi lo = s.field (aGt n 0x24) hi lo := by simp [State.field]
  have hslave : (s.orReg (aGt n 0) 1).slaveMode n = s.slaveMode n := by simp only [State.slaveMode, htrig]
  have hgsen : (s.orReg (aGt n 0) 1).flag (aGt n 0) 1 = s.flag (aGt n 0) 1 := by simp [bit]
  unfold State.gtEnable
  rw [if_neg (not_not_intro h)]
  refine ⟨by simp [bit], ?_, by simp⟩
  rw [State.gt_modGt _ _ _ hn, hslave, hgsen]

theorem State.gtEnable_of_not_stopped (h : (s.gt n).state ≠ .stopped) : s.gtEnable n = s := if_pos h

/-- R425: without EN a timer is stopped; its count stays. -/
theorem State.gtDisable_stops (hn : n < 16) : (s.gtDisable n).flag (aGt n 0) 0 = false ∧ ((s.gtDisable n).gt n).state = .stopped ∧
    (s.gtDisable n).reg (aGt n 8) = s.reg (aGt n 8) := by
  unfold State.gtDisable
  refine ⟨by simp [bit], ?_, by simp⟩
  rw [State.gt_modGt _ _ _ hn]

theorem State.gtArm_of_stopped (h : (s.gt n).state = .stopped) : s.gtArm n = s.gtTransfer n := if_pos h
theorem State.gtArm_of_not_stopped (h : (s.gt n).state ≠ .stopped) : s.gtArm n = s.swSet (aGt n 0) 4 := if_neg h

/-- R426: ARM writes the page of its timer only. -/
theorem State.gtArm_onlyPage (s : State) (n : Nat) : OnlyPage (aGt n 0) s (s.gtArm n) := by
  unfold State.gtArm
  split
  · exact s.gtTransfer_onlyPage n
  · exact .swSet (aGt_mem_page (by decide))

end

/-! ## Lamp channels (R435 to R437, R443) -/

section
variable (s : State) (n m : Nat)

theorem State.lp_modLp (f : Lp → Lp) (h : n < 8) : (s.modLp n f).lp n = f (s.lp n) := by
  simp [State.lp, State.modLp, vget_vmod, h]
@[simp] theorem State.flag_modLp (f : Lp → Lp) (b i : Nat) : (s.modLp n f).flag b i = s.flag b i := rfl
@[simp] theorem State.lp_hwSet (a : Nat) (v : W32) : (s.hwSet a v).lp n = s.lp n := rfl

/-- R437: a transfer writes the page of its channel only. -/
theorem State.lpTransfer_onlyPage : OnlyPage (aLp n 0) s (s.lpTransfer n) := by
  unfold State.lpTransfer
  exact (((OnlyPage.setReg (aLp_mem_page (by decide))).trans (.setReg (aLp_mem_page (by decide)))).trans
    (.hwClear (aLp_mem_page (by decide)))).trans (.hwSet (aLp_mem_page (by decide)))

@[simp] theorem State.lp_lpTransfer : (s.lpTransfer n).lp m = s.lp m := State.lp_congr m (s.lpTransfer_onlyPage n).tmr
@[simp] theorem State.sac_lpTransfer : (s.lpTransfer n).sac = s.sac := by simp [State.lpTransfer]

/-- R437: period and duty take the shadows' values, and XFER is set. -/
theorem State.lpTransfer_copies : (s.lpTransfer n).reg (aLp n 4) = s.reg (aLp n 0xC) ∧
    (s.lpTransfer n).reg (aLp n 8) = s.reg (aLp n 0x10) ∧ (s.lpTransfer n).flag (aLp n 0x14) 1 = true := by
  refine ⟨?_, ?_, ?_⟩ <;> simp [State.lpTransfer, bit]

/-- R9, R437: ARM falls, unless software has set it in the same cycle. -/
theorem State.lpTransfer_disarms (h : AMap.get? s.wset (aLp n 0) = none) : (s.lpTransfer n).flag (aLp n 0) 2 = false := by
  simp only [State.lpTransfer, State.flag_hwSet, aLp_inj, OfNat.zero_ne_ofNat, if_false]
  exact State.flag_hwClear_masked (by simpa using h) rfl

/-! ### The period boundary -/

@[simp] theorem State.reg_lpGiveBack (b : Nat) : (s.lpGiveBack n).reg b = s.reg b := by unfold State.lpGiveBack; split <;> rfl
@[simp] theorem State.flag_lpGiveBack (b i : Nat) : (s.lpGiveBack n).flag b i = s.flag b i := by
  unfold State.lpGiveBack; split <;> rfl
@[simp] theorem State.lp_lpGiveBack : (s.lpGiveBack n).lp m = s.lp m := by unfold State.lpGiveBack; split <;> rfl

/-- R443: a channel is the Sacristy's afterwards only while the outputs are taken. -/
theorem State.sacLp_lpGiveBack (h : n < 8) :
    bit (s.lpGiveBack n).sac.mux.sacLp n = (s.sac.mux.taken && bit s.sac.mux.sacLp n) := by
  unfold State.lpGiveBack
  split
  case isTrue ht => simp [ht]
  case isFalse ht => simp [ht, h]

/-- R435: a new period begins, and the dither phase advances. -/
def State.lpRestart (s : State) (n : Nat) : State :=
  s.modLp n (fun p => { p with count := 0, presc := 0, phase := p.phase + 1, clkdiv := s.field (aLp n 0) 15 12 })

@[simp] theorem State.reg_lpRestart (b : Nat) : (s.lpRestart n).reg b = s.reg b := rfl
@[simp] theorem State.flag_lpRestart (b i : Nat) : (s.lpRestart n).flag b i = s.flag b i := rfl
@[simp] theorem State.sac_lpRestart : (s.lpRestart n).sac = s.sac := rfl

end

section
variable {s : State} {n : Nat}

theorem State.lpBoundary_of_armed (h : s.flag (aLp n 0) 2 = true ∧ s.flag (aLp n 0) 3 = false) :
    s.lpBoundary n = (((s.lpRestart n).lpTransfer n).hwSet (aLp n 0x14) 1).lpGiveBack n := by
  have hc : (s.lpRestart n).flag (aLp n 0) 2 ∧ ¬ (s.lpRestart n).flag (aLp n 0) 3 := by simpa using h
  exact congrArg (fun t : State => (t.hwSet (aLp n 0x14) 1).lpGiveBack n) (if_pos hc)

theorem State.lpBoundary_of_not_armed (h : ¬ (s.flag (aLp n 0) 2 = true ∧ s.flag (aLp n 0) 3 = false)) :
    s.lpBoundary n = ((s.lpRestart n).hwSet (aLp n 0x14) 1).lpGiveBack n := by
  have hc : ¬ ((s.lpRestart n).flag (aLp n 0) 2 ∧ ¬ (s.lpRestart n).flag (aLp n 0) 3) := by simpa using h
  exact congrArg (fun t : State => (t.hwSet (aLp n 0x14) 1).lpGiveBack n) (if_neg hc)

/-- A boundary is the restart, a transfer where the channel is armed, the status bit, and the giving back. -/
theorem State.lpBoundary_cases {P : State → Prop} (ht : P ((((s.lpRestart n).lpTransfer n).hwSet (aLp n 0x14) 1).lpGiveBack n))
    (hs : P (((s.lpRestart n).hwSet (aLp n 0x14) 1).lpGiveBack n)) : P (s.lpBoundary n) := by
  by_cases h : s.flag (aLp n 0) 2 = true ∧ s.flag (aLp n 0) 3 = false
  · rwa [State.lpBoundary_of_armed h]
  · rwa [State.lpBoundary_of_not_armed h]

/-- R435: the count starts again. -/
theorem State.lpBoundary_lp : (s.lpBoundary n).lp n = (s.lpRestart n).lp n :=
  State.lpBoundary_cases (P := fun u => u.lp n = (s.lpRestart n).lp n) (by simp) (by simp)

theorem State.lpRestart_lp (hn : n < 8) : (s.lpRestart n).lp n =
    { s.lp n with count := 0, presc := 0, phase := (s.lp n).phase + 1, clkdiv := s.field (aLp n 0) 15 12 } := s.lp_modLp n _ hn

/-- R435: the boundary is in the status. -/
theorem State.lpBoundary_status : (s.lpBoundary n).flag (aLp n 0x14) 0 = true :=
  State.lpBoundary_cases (P := fun u => u.flag (aLp n 0x14) 0 = true) (by simp [bit]) (by simp [bit])

/-- R443: the boundary gives the channel back where the outputs have been given back. -/
theorem State.lpBoundary_sacLp (hn : n < 8) :
    bit (s.lpBoundary n).sac.mux.sacLp n = (s.sac.mux.taken && bit s.sac.mux.sacLp n) :=
  State.lpBoundary_cases (P := fun u => bit u.sac.mux.sacLp n = (s.sac.mux.taken && bit s.sac.mux.sacLp n))
    (by simp [State.sacLp_lpGiveBack, hn]) (by simp [State.sacLp_lpGiveBack, hn])

/-- R437: an armed channel has the values of its shadows from the boundary on. -/
theorem State.lpBoundary_loads (h : s.flag (aLp n 0) 2 = true ∧ s.flag (aLp n 0) 3 = false) :
    (s.lpBoundary n).reg (aLp n 4) = s.reg (aLp n 0xC) ∧ (s.lpBoundary n).reg (aLp n 8) = s.reg (aLp n 0x10) ∧
      (AMap.get? s.wset (aLp n 0) = none → (s.lpBoundary n).flag (aLp n 0) 2 = false) := by
  obtain ⟨hper, hduty, -⟩ := (s.lpRestart n).lpTransfer_copies n
  rw [State.lpBoundary_of_armed h]
  exact ⟨by simp [hper], by simp [hduty], fun hw => by simpa using State.lpTransfer_disarms (s.lpRestart n) n hw⟩

/-- R437: period and duty of a channel that is not armed stay. -/
theorem State.lpBoundary_holds (h : ¬ (s.flag (aLp n 0) 2 = true ∧ s.flag (aLp n 0) 3 = false)) :
    (s.lpBoundary n).reg (aLp n 4) = s.reg (aLp n 4) ∧ (s.lpBoundary n).reg (aLp n 8) = s.reg (aLp n 8) := by
  rw [State.lpBoundary_of_not_armed h]
  simp

/-! ### EN and ARM -/

/-- R437: EN starts a stopped channel. -/
theorem State.lpEnable_of_stopped (hn : n < 8) (h : (s.lp n).state = .stopped) :
    (s.lpEnable n).flag (aLp n 0) 0 = true ∧
      ((s.lpEnable n).lp n).state = (if s.flag (aLp n 0) 1 then .waiting else .running) := by
  have hgsen : (s.orReg (aLp n 0) 1).flag (aLp n 0) 1 = s.flag (aLp n 0) 1 := by simp [bit]
  unfold State.lpEnable
  rw [if_neg (not_not_intro h)]
  refine ⟨by simp [bit], ?_⟩
  rw [State.lp_modLp _ _ _ hn, hgsen]

theorem State.lpEnable_of_not_stopped (h : (s.lp n).state ≠ .stopped) : s.lpEnable n = s := if_pos h

/-- R437: without EN a channel is stopped. -/
theorem State.lpDisable_stops (hn : n < 8) : (s.lpDisable n).flag (aLp n 0) 0 = false ∧ ((s.lpDisable n).lp n).state = .stopped := by
  unfold State.lpDisable
  refine ⟨by simp [bit], ?_⟩
  rw [State.lp_lpGiveBack, State.lp_modLp _ _ _ hn]

theorem State.lpArm_of_stopped (h : (s.lp n).state = .stopped) : s.lpArm n = s.lpTransfer n := if_pos h
theorem State.lpArm_of_not_stopped (h : (s.lp n).state ≠ .stopped) : s.lpArm n = s.swSet (aLp n 0) 4 := if_neg h

/-- R437: ARM writes the page of its channel only. -/
theorem State.lpArm_onlyPage (s : State) (n : Nat) : OnlyPage (aLp n 0) s (s.lpArm n) := by
  unfold State.lpArm
  split
  · exact s.lpTransfer_onlyPage n
  · exact .swSet (aLp_mem_page (by decide))

end

/-! ## Group registers (R428) -/

/-- What f reads stays through a range of steps that leave it alone. -/
theorem foldl_range_keeps {σ β : Type} (f : σ → β) (step : σ → Nat → σ) (s : σ) (N : Nat)
    (h : ∀ t m, m < N → f (step t m) = f t) : f ((List.range N).foldl step s) = f s := by
  induction N with
  | zero => rfl
  | succ N ih =>
    rw [List.range_succ, List.foldl_append]
    exact (h _ N (by omega)).trans (ih fun t m hm => h t m (by omega))

/-- Of a range of steps the n-th alone decides what f reads, where the others leave it alone. -/
theorem foldl_range_at {σ β : Type} (f : σ → β) (step : σ → Nat → σ) (s : σ) {n N : Nat} (hn : n < N)
    (h : ∀ t m, m < N → m ≠ n → f (step t m) = f t) :
    ∃ t, f t = f s ∧ f ((List.range N).foldl step s) = f (step t n) := by
  induction N with
  | zero => omega
  | succ N ih =>
    rw [List.range_succ, List.foldl_append]
    by_cases hN : n = N
    · subst hN
      exact ⟨_, foldl_range_keeps f step s n fun t m hm => h t m (by omega) (by omega), rfl⟩
    · obtain ⟨t, ht, hstep⟩ := ih (by omega) fun t m hm => h t m (by omega)
      exact ⟨t, ht, (h _ N (by omega) (fun e => hN e.symm)).trans hstep⟩

/-- What there is of the timer or channel whose page begins at p: its registers, and the timer block's own state. -/
def State.page (s : State) (p : Nat) : Tmr × (Fin 0x100 → W32) := (s.tmr, fun k => s.reg (p + k.val))

section
variable {s u : State} {p q n k : Nat}

theorem OnlyPage.page_eq (h : OnlyPage q s u) (hd : p + 0x100 ≤ q ∨ q + 0x100 ≤ p) : u.page p = s.page p := by
  unfold State.page
  rw [h.tmr]
  exact congrArg _ (funext fun k => h.regs _ (by omega))

theorem OnlyPage.ite (h : OnlyPage p s u) (c : Bool) : OnlyPage p s (if c then u else s) := by
  cases c
  · exact .refl
  · exact h

theorem State.reg_of_gtPage (h : u.page (aGt n 0) = s.page (aGt n 0)) (hk : k < 0x100) : u.reg (aGt n k) = s.reg (aGt n k) :=
  congrFun (congrArg Prod.snd h) ⟨k, hk⟩
theorem State.flag_of_gtPage (h : u.page (aGt n 0) = s.page (aGt n 0)) (hk : k < 0x100) (i : Nat) :
    u.flag (aGt n k) i = s.flag (aGt n k) i := congrArg (bit · i) (State.reg_of_gtPage h hk)
theorem State.gt_of_page (h : u.page p = s.page p) : u.gt n = s.gt n := State.gt_congr n (congrArg Prod.fst h)
theorem State.reg_of_lpPage (h : u.page (aLp n 0) = s.page (aLp n 0)) (hk : k < 0x100) : u.reg (aLp n k) = s.reg (aLp n k) :=
  congrFun (congrArg Prod.snd h) ⟨k, hk⟩
theorem State.flag_of_lpPage (h : u.page (aLp n 0) = s.page (aLp n 0)) (hk : k < 0x100) (i : Nat) :
    u.flag (aLp n k) i = s.flag (aLp n k) i := congrArg (bit · i) (State.reg_of_lpPage h hk)
theorem State.lp_of_page (h : u.page p = s.page p) : u.lp n = s.lp n := State.lp_congr n (congrArg Prod.fst h)

end

section
variable {g l : State → Nat → State} (hg : ∀ s m, OnlyPage (aGt m 0) s (g s m)) (hl : ∀ s m, OnlyPage (aLp m 0) s (l s m))
  (s : State) (w : W32)
include hg hl

/-- R428: a timer sees of a group command its own part of it alone. -/
theorem State.group_gt (n : Fin 16) : ∃ t, t.page (aGt n.val 0) = s.page (aGt n.val 0) ∧
    (s.group w g l).page (aGt n.val 0) = (if bit w n.val then g t n.val else t).page (aGt n.val 0) := by
  obtain ⟨t, ht, hstep⟩ := foldl_range_at (fun u : State => u.page (aGt n.val 0)) (fun s m => if bit w m then g s m else s) s
    n.isLt (fun t m _ hm => ((hg t m).ite _).page_eq (by unfold aGt; omega))
  refine ⟨t, ht, (foldl_range_keeps (fun u : State => u.page (aGt n.val 0)) _ _ 8 fun t m _ => ?_).trans hstep⟩
  exact ((hl t m).ite _).page_eq (by unfold aGt aLp; omega)

/-- R428: so does a lamp channel. -/
theorem State.group_lp (n : Fin 8) : ∃ t, t.page (aLp n.val 0) = s.page (aLp n.val 0) ∧
    (s.group w g l).page (aLp n.val 0) = (if bit w (16 + n.val) then l t n.val else t).page (aLp n.val 0) := by
  obtain ⟨t, ht, hstep⟩ := foldl_range_at (fun u : State => u.page (aLp n.val 0)) (fun s m => if bit w (16 + m) then l s m else s)
    ((List.range 16).foldl (fun s m => if bit w m then g s m else s) s) n.isLt
    (fun t m _ hm => ((hl t m).ite _).page_eq (by unfold aLp; omega))
  refine ⟨t, ht.trans (foldl_range_keeps (fun u : State => u.page (aLp n.val 0)) _ _ 16 fun t m hm => ?_), hstep⟩
  exact ((hg t m).ite _).page_eq (by unfold aGt aLp; omega)

theorem State.group_gt_of_set {n : Fin 16} (h : bit w n.val = true) : ∃ t, t.page (aGt n.val 0) = s.page (aGt n.val 0) ∧
    (s.group w g l).page (aGt n.val 0) = (g t n.val).page (aGt n.val 0) := by
  simpa only [h, if_true] using State.group_gt hg hl s w n

/-- R428: a timer that the command does not name stays as it was. -/
theorem State.group_gt_of_clear {n : Fin 16} (h : bit w n.val = false) : (s.group w g l).gt n.val = s.gt n.val ∧
    ∀ k, k < 0x100 → (s.group w g l).reg (aGt n.val k) = s.reg (aGt n.val k) := by
  obtain ⟨t, ht, hu⟩ := State.group_gt hg hl s w n
  rw [h, if_neg (by decide), ht] at hu
  exact ⟨State.gt_of_page hu, fun k hk => State.reg_of_gtPage hu hk⟩

theorem State.group_lp_of_set {n : Fin 8} (h : bit w (16 + n.val) = true) : ∃ t, t.page (aLp n.val 0) = s.page (aLp n.val 0) ∧
    (s.group w g l).page (aLp n.val 0) = (l t n.val).page (aLp n.val 0) := by
  simpa only [h, if_true] using State.group_lp hg hl s w n

/-- R428: a channel that the command does not name stays as it was. -/
theorem State.group_lp_of_clear {n : Fin 8} (h : bit w (16 + n.val) = false) : (s.group w g l).lp n.val = s.lp n.val ∧
    ∀ k, k < 0x100 → (s.group w g l).reg (aLp n.val k) = s.reg (aLp n.val k) := by
  obtain ⟨t, ht, hu⟩ := State.group_lp hg hl s w n
  rw [h, if_neg (by decide), ht] at hu
  exact ⟨State.lp_of_page hu, fun k hk => State.reg_of_lpPage hu hk⟩

end

section
variable (s : State) (w : W32)

/-- R428: TMR_ARM_SET on a timer that it names. -/
theorem State.armSet_gt {n : Fin 16} (h : bit w n.val = true) :
    ((s.gt n.val).state = .stopped → (s.armSet w).reg (aGt n.val 0xC) = s.reg (aGt n.val 0x18)) ∧
      ((s.gt n.val).state ≠ .stopped → (s.armSet w).flag (aGt n.val 0) 2 = true) := by
  obtain ⟨t, ht, hu⟩ := State.group_gt_of_set State.gtArm_onlyPage State.lpArm_onlyPage s w h
  have hgt : t.gt n.val = s.gt n.val := State.gt_of_page ht
  refine ⟨fun hs => ?_, fun hs => ?_⟩
  · refine (State.reg_of_gtPage hu (by decide)).trans ?_
    rw [State.gtArm_of_stopped (by rwa [hgt]), (t.gtTransfer_copies n.val).1, State.reg_of_gtPage ht (by decide)]
  · refine (State.flag_of_gtPage hu (by decide) 2).trans ?_
    rw [State.gtArm_of_not_stopped (by rwa [hgt])]
    simp [bit]

/-- R428: TMR_ARM_SET on a channel that it names. -/
theorem State.armSet_lp {n : Fin 8} (h : bit w (16 + n.val) = true) :
    ((s.lp n.val).state = .stopped → (s.armSet w).reg (aLp n.val 4) = s.reg (aLp n.val 0xC)) ∧
      ((s.lp n.val).state ≠ .stopped → (s.armSet w).flag (aLp n.val 0) 2 = true) := by
  obtain ⟨t, ht, hu⟩ := State.group_lp_of_set State.gtArm_onlyPage State.lpArm_onlyPage s w h
  have hlp : t.lp n.val = s.lp n.val := State.lp_of_page ht
  refine ⟨fun hs => ?_, fun hs => ?_⟩
  · refine (State.reg_of_lpPage hu (by decide)).trans ?_
    rw [State.lpArm_of_stopped (by rwa [hlp]), (t.lpTransfer_copies n.val).1, State.reg_of_lpPage ht (by decide)]
  · refine (State.flag_of_lpPage hu (by decide) 2).trans ?_
    rw [State.lpArm_of_not_stopped (by rwa [hlp])]
    simp [bit]

theorem gtHoldSet_onlyPage (s : State) (n : Nat) : OnlyPage (aGt n 0) s (s.orReg (aGt n 0) 8) := .orReg (aGt_mem_page (by decide))
theorem lpHoldSet_onlyPage (s : State) (n : Nat) : OnlyPage (aLp n 0) s (s.orReg (aLp n 0) 8) := .orReg (aLp_mem_page (by decide))
theorem gtHoldClr_onlyPage (s : State) (n : Nat) : OnlyPage (aGt n 0) s (s.clrReg (aGt n 0) 8) := .clrReg (aGt_mem_page (by decide))
theorem lpHoldClr_onlyPage (s : State) (n : Nat) : OnlyPage (aLp n 0) s (s.clrReg (aLp n 0) 8) := .clrReg (aLp_mem_page (by decide))

/-- R428: TMR_HOLD_SET on a timer, and on a channel, that it names. -/
theorem State.holdSet_gt {n : Fin 16} (h : bit w n.val = true) : (s.holdSet w).flag (aGt n.val 0) 3 = true := by
  obtain ⟨t, -, hu⟩ := State.group_gt_of_set gtHoldSet_onlyPage lpHoldSet_onlyPage s w h
  exact (State.flag_of_gtPage hu (by decide) 3).trans (by simp [bit])

theorem State.holdSet_lp {n : Fin 8} (h : bit w (16 + n.val) = true) : (s.holdSet w).flag (aLp n.val 0) 3 = true := by
  obtain ⟨t, -, hu⟩ := State.group_lp_of_set gtHoldSet_onlyPage lpHoldSet_onlyPage s w h
  exact (State.flag_of_lpPage hu (by decide) 3).trans (by simp [bit])

/-- R428: TMR_HOLD_CLR on a timer, and on a channel, that it names. -/
theorem State.holdClr_gt {n : Fin 16} (h : bit w n.val = true) : (s.holdClr w).flag (aGt n.val 0) 3 = false := by
  obtain ⟨t, -, hu⟩ := State.group_gt_of_set gtHoldClr_onlyPage lpHoldClr_onlyPage s w h
  exact (State.flag_of_gtPage hu (by decide) 3).trans (by simp [bit])

theorem State.holdClr_lp {n : Fin 8} (h : bit w (16 + n.val) = true) : (s.holdClr w).flag (aLp n.val 0) 3 = false := by
  obtain ⟨t, -, hu⟩ := State.group_lp_of_set gtHoldClr_onlyPage lpHoldClr_onlyPage s w h
  exact (State.flag_of_lpPage hu (by decide) 3).trans (by simp [bit])

end

/-! ## Releases (R431 to R433) -/

section
variable (s : State)

/-- R431: a release starts the timers that wait for it. -/
theorem State.gt_release1 (n : Fin 16) : s.release1.gt n.val =
    if (s.gt n.val).state = .waiting ∧ s.flag (aGt n.val 0) 1 = true then { s.gt n.val with state := .running } else s.gt n.val := by
  change vget (Vector.ofFn _) n.val _ = _
  rw [vget_eq, dif_pos n.isLt, Vector.getElem_ofFn]

/-- R431: and the channels. -/
theorem State.lp_release1 (n : Fin 8) : s.release1.lp n.val =
    if (s.lp n.val).state = .waiting ∧ s.flag (aLp n.val 0) 1 = true then { s.lp n.val with state := .running } else s.lp n.val := by
  change vget (Vector.ofFn _) n.val _ = _
  rw [vget_eq, dif_pos n.isLt, Vector.getElem_ofFn]

theorem State.tmr_groupRelease : s.groupRelease.tmr = s.release1.tmr := by unfold State.groupRelease; split <;> rfl
theorem State.tt_release1 : s.release1.tt = s.tt := by
  unfold State.release1
  rfl
theorem State.regs_release1 : s.release1.regs = s.regs := by
  unfold State.release1
  rfl
theorem State.tt_groupRelease : s.groupRelease.tt = s.tt := by
  unfold State.groupRelease
  split
  · exact s.tt_release1
  · rw [State.tt_hwSet, s.tt_release1]
theorem State.gt_groupRelease (n : Nat) : s.groupRelease.gt n = s.release1.gt n := State.gt_congr n s.tmr_groupRelease
theorem State.lp_groupRelease (n : Nat) : s.groupRelease.lp n = s.release1.lp n := State.lp_congr n s.tmr_groupRelease

variable {s}

theorem State.groupRelease_of_valid (h : s.ttValid = true) : s.groupRelease.regs = s.regs := by
  unfold State.groupRelease
  rw [if_pos h, State.regs_release1]

/-- R433: a release without a valid town time is told. -/
theorem State.groupRelease_of_not_valid (h : s.ttValid = false) : s.groupRelease.flag (aTmr 0x3004) 2 = true := by
  unfold State.groupRelease
  rw [h, if_neg (by decide)]
  simp [bit]

theorem State.flag_pending (p : Bool) (b i : Nat) :
    ({ s with tmr := { s.tmr with pending := p } } : State).flag b i = s.flag b i := rfl

/-- R433: ARM_AT sets up a release; a time that has passed is told. -/
theorem State.armAt_arms : s.armAt.tmr.pending = true ∧ s.armAt.flag (aTmr 0x3004) 1 =
    (s.flag (aTmr 0x3004) 1 || decide ((s.pair (aTmr 0x3008)).toNat ≤ s.tt.now.toNat)) := by
  refine ⟨rfl, ?_⟩
  unfold State.armAt
  split
  case isTrue h =>
    rw [State.flag_pending, State.flag_hwSet, decide_eq_true h]
    simp [bit]
  case isFalse h => rw [State.flag_pending, decide_eq_false h, Bool.or_false]

/-- R432, R433: a pending release that is due, and that town time's validity does not hold back, is made, and ends. -/
theorem State.checkRelease_of_due (hp : s.tmr.pending = true) (hat : (s.pair (aTmr 0x3008)).toNat ≤ s.tt.now.toNat)
    (hv : s.flag (aTmr 0x3000) 3 = false ∨ s.ttValid = true) :
    s.checkRelease.tmr.pending = false ∧ (s.pair (aTmr 0x3008)).toNat ≤ s.checkRelease.tt.now.toNat ∧
      (s.ttValid = false → s.checkRelease.flag (aTmr 0x3004) 2 = true) ∧
      ∀ n : Fin 16, (s.gt n.val).state = .waiting → s.flag (aGt n.val 0) 1 = true → (s.checkRelease.gt n.val).state = .running := by
  have hmade : s.checkRelease = s.makeRelease := if_pos ⟨hp, hat, by simpa using hv⟩
  rw [hmade]
  refine ⟨rfl, ?_, State.groupRelease_of_not_valid, fun n hw hg => ?_⟩
  · change _ ≤ s.groupRelease.tt.now.toNat
    rwa [State.tt_groupRelease]
  · change (s.groupRelease.gt n.val).state = _
    rw [State.gt_groupRelease, State.gt_release1, if_pos ⟨hw, hg⟩]

/-- R95, R98: the counter takes a value, with PPS_OUT as it then is. -/
def State.ttReach (s : State) (v : W64) : State :=
  let t := { s with tt := { s.tt with now := v } }
  if decide (ttSecond s.tt.now < ttSecond v) then t.ppsRise else t

theorem State.ttMove_eq (v : W64) : s.ttMove v = (s.ttReach v).checkRelease := rfl

/-- Reaching a time changes town time alone. -/
theorem State.ttReach_tt (v : W64) : ∃ o, s.ttReach v = { s with tt := { s.tt with now := v, ppsOut := o } } := by
  unfold State.ttReach State.ppsRise
  dsimp only
  split
  · split <;> exact ⟨_, rfl⟩
  · exact ⟨_, rfl⟩

/-- R433: SCHEDULED_RELEASE makes the pending release, at its time or, where that has passed, at once. -/
theorem State.scheduledRelease_made (hp : s.tmr.pending = true) (hv : s.flag (aTmr 0x3000) 3 = false ∨ s.ttValid = true) :
    Answers (execScheduledRelease s) (fun u => u.tmr.pending = false ∧ (s.pair (aTmr 0x3008)).toNat ≤ u.tt.now.toNat ∧
      (s.ttValid = false → u.flag (aTmr 0x3004) 2 = true) ∧
      ∀ n : Fin 16, (s.gt n.val).state = .waiting → s.flag (aGt n.val 0) 1 = true → (u.gt n.val).state = .running) := by
  have hgo : ¬ (¬ s.tmr.pending ∨ (s.flag (aTmr 0x3000) 3 ∧ ¬ s.ttValid)) := by
    rcases hv with h | h <;> simp [hp, h]
  unfold Answers execScheduledRelease
  dsimp only
  rw [if_neg hgo]
  split
  case isTrue =>
    refine ⟨_, rfl, ?_⟩
    obtain ⟨o, ho⟩ := s.ttReach_tt (s.pair (aTmr 0x3008))
    rw [State.ttMove_eq, ho]
    exact State.checkRelease_of_due (s := { s with tt := { s.tt with now := s.pair (aTmr 0x3008), ppsOut := o } }) hp (Nat.le_refl _) hv
  case isFalse hlt => exact ⟨_, rfl, State.checkRelease_of_due hp (by omega) hv⟩

end

/-! ## Edge detectors (R438 to R441) -/

section
variable (s : State) (n m : Nat)

theorem State.ed_modEd (f : Ed → Ed) (h : n < 16) : (s.modEd n f).ed n = f (s.ed n) := by
  simp [State.ed, State.modEd, vget_vmod, h]
theorem State.ed_congr {s t : State} (h : t.tmr = s.tmr) : t.ed n = s.ed n := by simp only [State.ed, h]
@[simp] theorem State.ed_raise (k : Nat) : (s.raise k).ed n = s.ed n := State.ed_congr n (s.tmr_raise k)

/-- R438: the filtered level of EDn becomes `level`. -/
def State.edLevel (level : Bool) : State := s.modEd n (fun e => { e with level := level })

/-- R440: an edge comes within MININT of the last captured one. -/
def State.edLimited : Bool := match (s.ed n).last with
  | some t => decide (s.field (aEd n 4) 23 0 ≠ 0) && decide (s.tmr.cycles < t + s.field (aEd n 4) 23 0)
  | none => false

/-- R439: the time by which the filter delays an edge. -/
def State.edLag : Nat := (s.field (aEd n 0) 23 16 + 2) * 10

/-- R439: an edge that is captured enters the FIFO with its time, which is free before enough time has passed (log 10). -/
def State.edEnter (level : Bool) : State :=
  let (ts, t) := if s.tt.now.toNat < s.edLag n then s.drawWord else (s.tt.now - BitVec.ofNat 64 (s.edLag n), s)
  let t := t.modEd n (fun e => { e with fifo := e.fifo ++ [{ rising := level, ts := ts }], last := some t.tmr.cycles })
  (t.source (0x20 + n)).raise (16 + n)

/-- R439, R440: an edge that is not captured is counted, and its status bit set. -/
def State.edMiss (a : Nat) (m : W32) : State := (s.count a).hwSet (aEd n 8) m

end

/-- R438, R439: a changed level of EDn is an edge that it looks for, at a ball that is powered. -/
def State.edChosen (s : State) (n : Nat) (level : Bool) : Prop :=
  (s.ed n).level ≠ level ∧ s.gpioPowered (s.field (aEd n 0) 4 0) = true ∧ s.flag (aEd n 0) (if level then 8 else 9) = true

section
variable {s : State} {n : Nat} {level : Bool}

/-- The two bits of EDGE are those of rising and falling edges. -/
theorem State.edSel_of_flag (h : s.flag (aEd n 0) (if level then 8 else 9) = true) :
    if level then s.field (aEd n 0) 9 8 % 2 = 1 else s.field (aEd n 0) 9 8 / 2 = 1 := by
  have hlt : s.field (aEd n 0) 9 8 < 4 := Nat.mod_lt _ (by decide)
  cases level
  case true =>
    have hbit : (s.field (aEd n 0) 9 8).testBit 0 = true := by rw [State.testBit_field]; simpa using h
    simpa [Nat.testBit_zero] using hbit
  case false =>
    have hbit : (s.field (aEd n 0) 9 8).testBit 1 = true := by rw [State.testBit_field]; simpa using h
    rw [Nat.testBit_succ, Nat.testBit_zero, decide_eq_true_eq] at hbit
    simp only [Bool.false_eq_true, if_false]
    omega

theorem State.edge_of_same (h : (s.ed n).level = level) : s.edge n level = s := if_pos (.inl h)

/-- R439, R440: what becomes of an edge that is chosen. -/
theorem State.edge_of_chosen (h : s.edChosen n level) :
    s.edge n level =
      if s.edLimited n then (s.edLevel n level).edMiss n (aEd n 0x20) 0x200
      else if (s.ed n).fifo.length ≥ 4 then (s.edLevel n level).edMiss n (aEd n 0x18) 0x100
      else (s.edLevel n level).edEnter n level := by
  obtain ⟨hlevel, hpower, hsel⟩ := h
  have hon : ¬ ((s.ed n).level = level ∨ ¬ s.gpioPowered (s.field (aEd n 0) 4 0)) := by simp [hlevel, hpower]
  exact (if_neg hon).trans (if_neg (not_not_intro (State.edSel_of_flag hsel)))

theorem State.edEnter_ed (hn : n < 16) (hlag : s.edLag n ≤ s.tt.now.toNat) : (s.edEnter n level).ed n =
    { s.ed n with
      fifo := (s.ed n).fifo ++ [{ rising := level, ts := s.tt.now - BitVec.ofNat 64 (s.edLag n) }]
      last := some s.tmr.cycles } := by
  unfold State.edEnter
  rw [if_neg (by omega)]
  dsimp only
  rw [State.ed_raise, State.ed_source, State.ed_modEd _ _ _ hn]

theorem State.edMiss_ed (a : Nat) (m : W32) : (s.edMiss n a m).ed n = s.ed n :=
  State.ed_congr n (by simp [State.edMiss])

/-- A miss is counted. -/
theorem State.edMiss_pair (k : Nat) (hk : k ≠ 8) (hk4 : k + 4 ≠ 8) (m : W32) :
    (s.edMiss n (aEd n k) m).pair (aEd n k) = s.pair (aEd n k) + 1 := by
  have hset : (s.edMiss n (aEd n k) m).pair (aEd n k) = (s.count (aEd n k)).pair (aEd n k) :=
    State.pair_congr (by simp [State.edMiss, hk]) (by simp [State.edMiss, aEd_add, hk4])
  rw [hset, State.pair_count]

theorem State.edMiss_flag (a i : Nat) (m : W32) (h : bit m i = true) : (s.edMiss n a m).flag (aEd n 8) i = true := by
  simp [State.edMiss, h]

/-- R440: with MININT at 0, or before the first edge, nothing limits. -/
theorem State.edLimited_of_free (h : s.field (aEd n 4) 23 0 = 0 ∨ (s.ed n).last = none) : s.edLimited n = false := by
  unfold State.edLimited
  rcases h with h | h <;> rw [h]
  split <;> rfl

theorem State.edLimited_of_soon {t : Nat} (hl : (s.ed n).last = some t) (h0 : s.field (aEd n 4) 23 0 ≠ 0)
    (ht : s.tmr.cycles < t + s.field (aEd n 4) 23 0) : s.edLimited n = true := by
  unfold State.edLimited
  rw [hl]
  simp [h0, ht]

end

section
variable {s : State} {n : Nat} {level : Bool}

theorem State.ed_edLevel (hn : n < 16) : (s.edLevel n level).ed n = { s.ed n with level := level } := s.ed_modEd n _ hn

/-- The filter's own stages are all that ED_EDGE writes after the edge. -/
theorem State.ed_edFiltered (hn : n < 16) : (s.edFiltered n level).ed n =
    { (s.edge n level).ed n with sync := if level then 3 else 0, held := 0 } := State.ed_modEd _ _ _ hn

theorem State.regs_edFiltered : (s.edFiltered n level).regs = (s.edge n level).regs := rfl
theorem State.flag_edFiltered (b i : Nat) : (s.edFiltered n level).flag b i = (s.edge n level).flag b i := rfl
theorem State.pair_edFiltered (b : Nat) : (s.edFiltered n level).pair b = (s.edge n level).pair b := rfl

/-- R438: a level that stands is no edge. -/
theorem State.edFiltered_of_same (hn : n < 16) (h : (s.ed n).level = level) : (s.edFiltered n level).regs = s.regs ∧
    ((s.edFiltered n level).ed n).fifo = (s.ed n).fifo ∧ ((s.edFiltered n level).ed n).level = level ∧
      ((s.edFiltered n level).ed n).last = (s.ed n).last := by
  rw [State.regs_edFiltered, State.ed_edFiltered hn, State.edge_of_same h]
  exact ⟨rfl, rfl, h, rfl⟩

/-- R439: a captured edge enters the FIFO with its level and its time. -/
theorem State.edFiltered_captures (hn : n < 16) (h : s.edChosen n level)
    (hfree : s.field (aEd n 4) 23 0 = 0 ∨ (s.ed n).last = none) (hroom : (s.ed n).fifo.length < 4)
    (hlag : s.edLag n ≤ s.tt.now.toNat) :
    ((s.edFiltered n level).ed n).level = level ∧ ((s.edFiltered n level).ed n).last = some s.tmr.cycles ∧
      ((s.edFiltered n level).ed n).fifo = (s.ed n).fifo ++ [⟨level, s.tt.now - BitVec.ofNat 64 (s.edLag n)⟩] := by
  have hedge : s.edge n level = (s.edLevel n level).edEnter n level := by
    rw [State.edge_of_chosen h, State.edLimited_of_free hfree, if_neg (by decide), if_neg (by omega)]
  have henter := State.edEnter_ed (s := s.edLevel n level) (level := level) hn hlag
  rw [State.ed_edFiltered hn, hedge, henter, State.ed_edLevel hn]
  exact ⟨rfl, rfl, rfl⟩

/-- R439: an edge that finds the FIFO full is an overflow. -/
theorem State.edFiltered_overflows (hn : n < 16) (h : s.edChosen n level)
    (hfree : s.field (aEd n 4) 23 0 = 0 ∨ (s.ed n).last = none) (hfull : 4 ≤ (s.ed n).fifo.length) :
    ((s.edFiltered n level).ed n).fifo = (s.ed n).fifo ∧ (s.edFiltered n level).flag (aEd n 8) 8 = true ∧
      (s.edFiltered n level).pair (aEd n 0x18) = s.pair (aEd n 0x18) + 1 := by
  have hedge : s.edge n level = (s.edLevel n level).edMiss n (aEd n 0x18) 0x100 := by
    rw [State.edge_of_chosen h, State.edLimited_of_free hfree, if_neg (by decide), if_pos hfull]
  rw [State.ed_edFiltered hn, State.flag_edFiltered, State.pair_edFiltered, hedge, State.edMiss_ed, State.ed_edLevel hn]
  exact ⟨rfl, State.edMiss_flag _ _ _ rfl, State.edMiss_pair _ (by decide) (by decide) _⟩

/-- R440: an edge too soon after the last captured one is dropped. -/
theorem State.edFiltered_limited (hn : n < 16) (h : s.edChosen n level) (hsoon : s.edLimited n = true) :
    ((s.edFiltered n level).ed n).fifo = (s.ed n).fifo ∧ ((s.edFiltered n level).ed n).last = (s.ed n).last ∧
      (s.edFiltered n level).flag (aEd n 8) 9 = true ∧ (s.edFiltered n level).pair (aEd n 0x20) = s.pair (aEd n 0x20) + 1 := by
  have hedge : s.edge n level = (s.edLevel n level).edMiss n (aEd n 0x20) 0x200 := by
    rw [State.edge_of_chosen h, if_pos hsoon]
  rw [State.ed_edFiltered hn, State.flag_edFiltered, State.pair_edFiltered, hedge, State.edMiss_ed, State.ed_edLevel hn]
  exact ⟨rfl, rfl, State.edMiss_flag _ _ _ rfl, State.edMiss_pair _ (by decide) (by decide) _⟩

end

/-! ## DALI (R447 to R449) -/

/-- R10: a read-write field of any value takes the written bits, and no other bit changes. -/
theorem bit_fRw_write {hi lo : Nat} (h : lo ≤ hi) (hhi : hi < 32) (old d cur : W32) (j : Nat) :
    bit ((fRw hi lo).write old d cur) j = if lo ≤ j ∧ j ≤ hi then bit d j else bit cur j := by
  have hlt : bits d hi lo ≤ 2 ^ 32 :=
    (Nat.mod_lt _ (Nat.two_pow_pos _)).le.trans (Nat.pow_le_pow_right (by decide) (by omega))
  have hw : (fRw hi lo).write old d cur = putBits cur hi lo (bits d hi lo) := if_pos ⟨Nat.zero_le _, hlt⟩
  rw [hw]
  unfold bit
  rw [getLsbD_putBits _ _ _ _ _ h]
  split
  case isTrue hj => simp [testBit_bits, show j < 32 by omega, show j - lo < hi + 1 - lo by omega, show lo + (j - lo) = j by omega]
  case isFalse hj =>
    by_cases hlt : j < 32
    · simp [hlt]
    · simp [hlt, BitVec.getLsbD_of_ge _ _ (Nat.le_of_not_lt hlt)]

/-- The fields of DALI_TX. -/
def specDaliTx : RegSpec := ⟨0, [fRg 30 28 1 5, fRw 27 27, fRw 24 24, fRw 23 0]⟩

/-- ANSWER, the length and the data of DALI_TX are as written. -/
theorem bit_specDaliTx_write (old d : W32) {i : Nat} (hi : i ≤ 24 ∨ i = 27) : bit (specDaliTx.write old d) i = bit d i := by
  have hfold : specDaliTx.write old d = (fRw 23 0).write old d ((fRw 24 24).write old d ((fRw 27 27).write old d
    ((fRg 30 28 1 5).write old d old))) := rfl
  rw [hfold, bit_fRw_write (by decide) (by decide), bit_fRw_write (by decide) (by decide), bit_fRw_write (by decide) (by decide)]
  have hcase : i ≤ 23 ∨ i = 24 ∨ i = 27 := by omega
  rcases hcase with h | rfl | rfl
  · simp [h]
  · simp
  · simp

section
variable (s : State) (d : W32)

/-- A write of DALI_TX: the register has no W1C bit, so the word is stored as it is. -/
theorem State.store_daliTx : s.store (aLamp 0x10) d = s.setReg (aLamp 0x10) (specDaliTx.write (s.reg (aLamp 0x10)) d) := by
  have hspec : regSpec s.chip.variant.rateMax (aLamp 0x10) = some specDaliTx := rfl
  have hmask : specDaliTx.w1cMask = 0#32 := rfl
  unfold State.store
  rw [hspec]
  simp [hmask]

/-- The state with DALI_TX written. -/
def State.daliWritten : State := s.setReg (aLamp 0x10) (specDaliTx.write (s.reg (aLamp 0x10)) d)

theorem State.daliWritten_flag {i : Nat} (hi : i ≤ 24 ∨ i = 27) : (s.daliWritten d).flag (aLamp 0x10) i = bit d i := by
  unfold State.daliWritten
  rw [State.flag_setReg, if_pos rfl, bit_specDaliTx_write _ _ hi]

theorem State.daliWritten_data : ((s.daliWritten d).reg (aLamp 0x10)).truncate 24 = d.extractLsb' 0 24 := by
  refine BitVec.eq_of_getLsbD_eq fun i hi => ?_
  have hbit : ((s.daliWritten d).reg (aLamp 0x10)).getLsbD i = d.getLsbD i := s.daliWritten_flag d (by omega)
  simp [hi, hbit]

/-- R447: GO is bit 31 of the word. -/
theorem State.daliTx_of_go (h : bit d 31 = true) : s.daliTx d = (s.daliWritten d).daliGo := by
  unfold State.daliTx
  rw [State.store_daliTx, if_pos h]
  rfl

end

section
variable (s : State) (res : Nat)

theorem State.reg_daliResult : (s.daliResult res).reg (aLamp 0x14) = putBits (s.reg (aLamp 0x14)) 3 1 res ||| 0x10#32 := by
  simp only [State.daliResult, State.reg_hwSet, State.reg_setField, if_true]
  rfl

/-- The status register outside RESULT and DONE stays. -/
theorem State.flag_daliResult_of_high {i : Nat} (h : 4 < i) :
    (s.daliResult res).flag (aLamp 0x14) i = s.flag (aLamp 0x14) i := by
  have hdone : (0x10#32).getLsbD i = false := by
    rw [BitVec.getLsbD_ofNat, show 0x10 = 2 ^ 4 from rfl, Nat.testBit_two_pow]
    simp [show 4 ≠ i by omega]
  have hout : ¬ (1 ≤ i ∧ i ≤ 3) := by omega
  unfold State.flag bit
  rw [State.reg_daliResult, BitVec.getLsbD_or, hdone, Bool.or_false, getLsbD_putBits _ _ _ _ _ (by decide), if_neg hout]
  by_cases hi : i < 32
  · simp [hi]
  · simp [BitVec.getLsbD_of_ge _ _ (Nat.le_of_not_lt hi)]

/-- R447: a result is shown with DONE, and the engine is free. -/
theorem State.daliResult_shows (h : res < 8) : (s.daliResult res).field (aLamp 0x14) 3 1 = res ∧
    (s.daliResult res).flag (aLamp 0x14) 4 = true := by
  unfold State.field State.flag
  rw [State.reg_daliResult]
  constructor
  · have hdone : bits 0x10#32 3 1 = 0 := rfl
    rw [bits_or, bits_putBits_same _ _ _ _ (by decide) (by decide), hdone, Nat.or_zero]
    exact Nat.mod_eq_of_lt h
  · simp [bit]

@[simp] theorem State.dali_daliResult : (s.daliResult res).dali = { s.dali with busy := false } := rfl
@[simp] theorem State.events_daliResult : (s.daliResult res).events = s.events := State.events_hwSet _ _ _

end

theorem daliCode_lt (e : DaliEnd) (ask : Bool) : daliCode e ask < 8 := by
  cases e <;> cases ask <;> simp [daliCode]

section
variable {s : State}

theorem State.daliGo_of_busy (h : s.dali.busy = true) : s.daliGo = s := if_pos h

/-- R448: a frame of the Nave is not sent while DALI is the Sacristy's. -/
theorem State.daliGo_of_taken (hb : s.dali.busy = false) (ht : s.sac.mux.sacDali = true) : s.daliGo = s.daliResult 5 :=
  (if_neg (by simp [hb])).trans (if_pos ht)

/-- R449: nor while the bus is faulty. -/
theorem State.daliGo_of_fault (hb : s.dali.busy = false) (ht : s.sac.mux.sacDali = false) (hf : s.dali.fault = true) :
    s.daliGo = s.daliResult 6 :=
  ((if_neg (by simp [hb])).trans (if_neg (by simp [ht]))).trans (if_pos hf)

/-- R447: else it goes out as written. -/
theorem State.daliGo_sends (hb : s.dali.busy = false) (ht : s.sac.mux.sacDali = false) (hf : s.dali.fault = false) :
    s.daliGo.dali = { s.dali with
      busy := true
      ask := s.flag (aLamp 0x10) 27
      last := some (s.flag (aLamp 0x10) 24, (s.reg (aLamp 0x10)).truncate 24) } := by
  unfold State.daliGo
  rw [if_neg (by simp [hb]), if_neg (by simp [ht]), if_neg (by simp [hf])]

end

section
variable {s : State}

/-- R447: the answer of a frame is shown beside its result. -/
def State.daliAnswer (s : State) (e : DaliEnd) : State := match e with
  | .answer b => if s.dali.ask then s.setField (aLamp 0x14) 23 16 b.toNat else s
  | _ => s

theorem execDaliFrameEnd_of_early (hb : s.dali.busy = true) (ha : s.dali.ask = true) : execDaliFrameEnd .sent s = .next s :=
  if_pos ⟨hb, by simp [daliEarly, ha]⟩

theorem execDaliFrameEnd_of_busy {e : DaliEnd} (hb : s.dali.busy = true) (he : s.dali.ask = false ∨ e ≠ .sent) :
    execDaliFrameEnd e s = .next ((s.daliResult (daliCode e s.dali.ask)).daliAnswer e) := by
  have hlate : ¬ (s.dali.busy ∧ daliEarly e s.dali.ask) := by
    rcases he with h | h <;> simp [daliEarly, h]
  exact (if_neg hlate).trans (if_pos hb)

theorem execDaliFrameEnd_of_sacFrame {e : DaliEnd} {f : BitVec 16} (hb : s.dali.busy = false) (hf : s.dali.sacFrame = some f) :
    execDaliFrameEnd e s = .next { s with
      dali := { s.dali with sacFrame := none, last := some (false, f.zeroExtend 24) }
      sac := { s.sac with mux := { s.sac.mux with sacDali := s.sac.mux.taken } } } := by
  unfold execDaliFrameEnd
  rw [if_neg (by simp [hb]), if_neg (by simp [hb]), hf]

theorem State.dali_daliAnswer (e : DaliEnd) : (s.daliAnswer e).dali = s.dali := by
  cases e
  case answer b =>
    unfold State.daliAnswer
    dsimp only
    split <;> rfl
  all_goals rfl

/-- The answer lies above the other fields of the status. -/
theorem State.daliAnswer_status (e : DaliEnd) : (s.daliAnswer e).field (aLamp 0x14) 3 1 = s.field (aLamp 0x14) 3 1 ∧
    (s.daliAnswer e).flag (aLamp 0x14) 4 = s.flag (aLamp 0x14) 4 := by
  cases e
  case answer b =>
    unfold State.daliAnswer
    dsimp only
    split
    case isTrue =>
      unfold State.field State.flag bit
      rw [State.reg_setField, if_pos rfl, bits_putBits_ne _ _ _ _ _ _ (by decide) (by decide),
        getLsbD_putBits _ _ _ _ _ (by decide)]
      exact ⟨rfl, rfl⟩
    case isFalse => exact ⟨rfl, rfl⟩
  all_goals exact ⟨rfl, rfl⟩

theorem State.daliAnswer_shows (b : BitVec 8) (ha : s.dali.ask = true) :
    (s.daliAnswer (.answer b)).field (aLamp 0x14) 23 16 = b.toNat := by
  have hans : s.daliAnswer (.answer b) = s.setField (aLamp 0x14) 23 16 b.toNat := if_pos ha
  rw [hans, State.field, State.reg_setField, if_pos rfl, bits_putBits_same _ _ _ _ (by decide) (by decide)]
  exact Nat.mod_eq_of_lt b.isLt

/-- R447: a frame of the Nave ends with its result. -/
theorem daliFrameEnd_shows {e : DaliEnd} (hb : s.dali.busy = true) (he : s.dali.ask = false ∨ e ≠ .sent) :
    Answers (execDaliFrameEnd e s) (fun u => u.dali.busy = false ∧ u.flag (aLamp 0x14) 4 = true ∧
      u.field (aLamp 0x14) 3 1 = daliCode e s.dali.ask ∧
      ∀ b, e = .answer b → s.dali.ask = true → u.field (aLamp 0x14) 23 16 = b.toNat) := by
  obtain ⟨hcode, hdone⟩ := s.daliResult_shows _ (daliCode_lt e s.dali.ask)
  obtain ⟨hfield, hflag⟩ := (s.daliResult (daliCode e s.dali.ask)).daliAnswer_status e
  refine ⟨_, execDaliFrameEnd_of_busy hb he, ?_, hflag.trans hdone, hfield.trans hcode, ?_⟩
  · rw [State.dali_daliAnswer]
    rfl
  · rintro b rfl ha
    exact State.daliAnswer_shows b ha

/-- R449: the state with the fault of the bus seen. -/
def State.daliFaulty (s : State) : State := ({ s with dali := { s.dali with fault := true } }).hwSet (aLamp 0x14) 0x200

theorem State.dali_daliFaulty : s.daliFaulty.dali = { s.dali with fault := true } := State.dali_hwSet _ _ _
theorem State.events_daliFaulty : s.daliFaulty.events = s.events := State.events_hwSet _ _ _

theorem State.daliFaulty_flag : s.daliFaulty.flag (aLamp 0x14) 9 = true := by
  unfold State.daliFaulty
  rw [State.flag_hwSet, if_pos rfl]
  exact Bool.or_true _

/-- R449: a fault of the bus ends the frame on it. -/
theorem daliBusFault_shows : Answers (execDaliBusFault s) (fun u => u.dali.fault = true ∧ u.flag (aLamp 0x14) 9 = true ∧
    u.dali.busy = false ∧ u.events = s.events ∧ (s.dali.busy = true → u.field (aLamp 0x14) 3 1 = 6)) := by
  refine ⟨if s.dali.busy then s.daliFaulty.daliResult 6 else s.daliFaulty, rfl, ?_⟩
  cases hb : s.dali.busy
  case true =>
    obtain ⟨hfield, -⟩ := s.daliFaulty.daliResult_shows 6 (by decide)
    have hflag := (s.daliFaulty.flag_daliResult_of_high 6 (i := 9) (by decide)).trans State.daliFaulty_flag
    rw [if_pos rfl, State.dali_daliResult, State.events_daliResult, State.dali_daliFaulty, State.events_daliFaulty]
    exact ⟨rfl, hflag, rfl, rfl, fun _ => hfield⟩
  case false =>
    rw [if_neg (by decide), State.dali_daliFaulty, State.events_daliFaulty]
    exact ⟨rfl, State.daliFaulty_flag, hb, rfl, by simp⟩

/-- R447: GO on a write of DALI_TX by a Nave that runs. -/
theorem answers_daliTxGo {d : W32} {P : State → Prop} (hrun : s.naveRuns = true) (hgo : bit d 31 = true)
    (h : P (s.daliWritten d).daliGo) : Answers (execDaliTxGo d s) P :=
  ⟨_, by rw [execDaliTxGo, if_pos hrun, State.daliTx_of_go s d hgo], h⟩

end

/-! ## The commands -/

/-- R36, R92: an open unit does what its command says. -/
theorem State.unitAct_of_open {s : State} {u : Nat} (f : State → State) (h : s.unitOpen u) : s.unitAct u f = f s := by
  obtain ⟨hready, hclock⟩ := h
  simp [State.unitAct, hready, hclock]

theorem answers_unitAct {s : State} {u : Nat} {f : State → State} {P : State → Prop} (h : s.unitOpen u) (hp : P (f s)) :
    Answers (.next (s.unitAct u f)) P := ⟨f s, by rw [State.unitAct_of_open f h], hp⟩

section
variable {s : State}

/-- R36: a unit that is not ready shows EARLY and does nothing. -/
theorem State.unitAct_of_early {u : Nat} {f : State → State} (hready : s.unitReady u = false) (hup : s.naveUp = true)
    (hunit : s.hasUnit u = true) : s.unitAct u f = s.missEarly u := by
  simp [State.unitAct, hready, hup, hunit]

/-- R36: a command that changes nothing of an open unit. -/
theorem State.next_unitAct_same {u : Nat} {f : State → State} (h : s.unitOpen u) (hf : f s = s) :
    (.next (s.unitAct u f) : Out) = .next s := by
  rw [State.unitAct_of_open f h, hf]

theorem execGtPeriodBoundary_of_running {n : Fin 16} (hrun : (s.gt n.val).state = .running) (hf : s.gtFrozen n.val = false) :
    execGtPeriodBoundary n s = .next (s.gtArrive n.val 0 true) := congrArg Host.Outcome.next (if_pos ⟨hrun, by simp [hf]⟩)

theorem execLpPeriodBoundary_of_running {n : Fin 8} (hrun : (s.lp n.val).state = .running) :
    execLpPeriodBoundary n s = .next (s.lpBoundary n.val) := congrArg Host.Outcome.next (if_pos hrun)

theorem execLpPeriodBoundary_of_idle {n : Fin 8} (h : (s.lp n.val).state ≠ .running) : execLpPeriodBoundary n s = .next s :=
  congrArg Host.Outcome.next (if_neg h)

theorem execEdEdge_of_ready {n : Fin 16} {level : Bool} (h : s.unitReady 17 = true) :
    execEdEdge n level s = .next (s.edFiltered n.val level) := congrArg Host.Outcome.next (if_pos h)

theorem execGtPeriodBoundary_of_idle {n : Fin 16} (h : (s.gt n.val).state ≠ .running ∨ s.gtFrozen n.val = true) :
    execGtPeriodBoundary n s = .next s := by
  have hc : ¬ ((s.gt n.val).state = .running ∧ ¬ s.gtFrozen n.val) := by rcases h with h | h <;> simp [h]
  exact congrArg Host.Outcome.next (if_neg hc)

theorem execGtCompareEvent_of_idle {n : Fin 16} {k : Fin 2} (h : (s.gt n.val).state ≠ .running ∨ s.gtFrozen n.val = true) :
    execGtCompareEvent n k s = .next s := by
  have hc : ¬ ((s.gt n.val).state = .running ∧ ¬ s.gtFrozen n.val ∧
      (s.reg (aGt n.val (0x10 + 4 * k.val))).toNat ≤ (s.reg (aGt n.val 0xC)).toNat) := by rcases h with h | h <;> simp [h]
  exact congrArg Host.Outcome.next (if_neg hc)

/-- R423: a compare beyond the period is not reached. -/
theorem execGtCompareEvent_beyond {n : Fin 16} {k : Fin 2}
    (h : (s.reg (aGt n.val 0xC)).toNat < (s.reg (aGt n.val (0x10 + 4 * k.val))).toNat) : execGtCompareEvent n k s = .next s :=
  congrArg Host.Outcome.next (if_neg fun ⟨_, _, hle⟩ => absurd hle (by omega))

theorem execGtCompareEvent_reached {n : Fin 16} {k : Fin 2} (hrun : (s.gt n.val).state = .running) (hf : s.gtFrozen n.val = false)
    (hc : s.reg (aGt n.val (0x10 + 4 * k.val)) ≠ 0)
    (hle : (s.reg (aGt n.val (0x10 + 4 * k.val))).toNat ≤ (s.reg (aGt n.val 0xC)).toNat) :
    execGtCompareEvent n k s = .next (s.gtArrive n.val (s.reg (aGt n.val (0x10 + 4 * k.val))).toNat false) := by
  have hcond : (s.gt n.val).state = .running ∧ ¬ s.gtFrozen n.val ∧
      (s.reg (aGt n.val (0x10 + 4 * k.val))).toNat ≤ (s.reg (aGt n.val 0xC)).toNat := ⟨hrun, by simp [hf], hle⟩
  have hbd : decide ((s.reg (aGt n.val (0x10 + 4 * k.val))).toNat = 0) = false :=
    decide_eq_false fun h0 => hc (BitVec.eq_of_toNat_eq h0)
  exact (congrArg Host.Outcome.next (if_pos hcond)).trans (by rw [hbd])

end

/-! ## The statement -/

/-- Settles O56: each clause is the rule of its operation, carried to its command. -/
theorem timersAndDali : Obligations.TimersAndDali := by
  intro s
  refine ⟨fun n hu => ⟨?_, ?_, ?_, ?_, ?_⟩, ?_, fun n hrun hfrozen => ⟨?_, fun k => ⟨?_, ?_⟩⟩, ?_,
    fun w hu => ⟨?_, ?_, ?_⟩, fun hu => ⟨?_, ?_, ?_⟩, ?_, ?_, fun n => ⟨?_, ?_, fun hu => ⟨?_, ?_, ?_, ?_, ?_⟩⟩,
    fun n level hready => ⟨?_, ?_, ?_, ?_, ?_⟩, fun d hrun hgo => ⟨?_, ?_, ?_, ?_⟩, ?_, ?_, ?_, daliBusFault_shows, rfl⟩
  -- general timers: EN and ARM
  · exact fun h => answers_unitAct hu (State.gtEnable_of_stopped n.isLt h)
  · exact fun h => State.next_unitAct_same hu (State.gtEnable_of_not_stopped h)
  · exact answers_unitAct hu (State.gtDisable_stops n.isLt)
  · intro h
    obtain ⟨hper, hcmp0, hcmp1, hxfer⟩ := s.gtTransfer_copies n.val
    refine answers_unitAct hu ?_
    rw [State.gtArm_of_stopped h]
    exact ⟨hper, hcmp0, hcmp1, s.gtTransfer_disarms n.val, hxfer⟩
  · intro h
    refine answers_unitAct hu ?_
    rw [State.gtArm_of_not_stopped h]
    simp [bit]
  · intro n hready hup hunit
    refine ⟨_, congrArg Host.Outcome.next (State.unitAct_of_early hready hup hunit), ?_, rfl⟩
    simp [State.missEarly, bit]
  -- general timers: boundary and compares
  · refine ⟨_, execGtPeriodBoundary_of_running hrun hfrozen, State.boundary_count, State.boundary_status, State.boundary_of_armed,
      State.boundary_of_not_armed, ?_, State.boundary_sets_out n.isLt⟩
    rw [State.boundary_state n.isLt, hrun]
  · exact fun hc hle => ⟨_, execGtCompareEvent_reached hrun hfrozen hc hle, State.compare_arrives k rfl hle⟩
  · exact execGtCompareEvent_beyond
  · exact fun n k h => ⟨execGtPeriodBoundary_of_idle h, execGtCompareEvent_of_idle h⟩
  -- group registers
  · refine answers_unitAct hu ⟨fun n => ⟨fun h => (s.armSet_gt w h).1, fun h => (s.armSet_gt w h).2, ?_⟩,
      fun n => ⟨fun h => (s.armSet_lp w h).1, fun h => (s.armSet_lp w h).2, ?_⟩⟩
    · exact State.group_gt_of_clear State.gtArm_onlyPage State.lpArm_onlyPage s w
    · exact State.group_lp_of_clear State.gtArm_onlyPage State.lpArm_onlyPage s w
  · exact answers_unitAct hu
      ⟨fun n => ⟨s.holdSet_gt w, State.group_gt_of_clear gtHoldSet_onlyPage lpHoldSet_onlyPage s w⟩,
        fun n => ⟨s.holdSet_lp w, State.group_lp_of_clear gtHoldSet_onlyPage lpHoldSet_onlyPage s w⟩⟩
  · exact answers_unitAct hu
      ⟨fun n => ⟨s.holdClr_gt w, State.group_gt_of_clear gtHoldClr_onlyPage lpHoldClr_onlyPage s w⟩,
        fun n => ⟨s.holdClr_lp w, State.group_lp_of_clear gtHoldClr_onlyPage lpHoldClr_onlyPage s w⟩⟩
  -- releases
  · refine answers_unitAct hu ⟨State.groupRelease_of_valid, State.groupRelease_of_not_valid, fun n => ?_, fun n => ?_⟩
    · rw [State.gt_groupRelease, State.gt_release1]
    · rw [State.lp_groupRelease, State.lp_release1]
  · exact answers_unitAct hu State.armAt_arms
  · exact congrArg Host.Outcome.next (State.unitAct_of_open State.cancelRelease hu)
  · exact State.scheduledRelease_made
  · exact fun h => if_pos (by simpa using h)
  -- lamp channels
  · intro hrun
    refine ⟨_, execLpPeriodBoundary_of_running hrun, ?_, ?_, State.lpBoundary_status, State.lpBoundary_loads, State.lpBoundary_holds,
      State.lpBoundary_sacLp n.isLt⟩
    · rw [State.lpBoundary_lp, State.lpRestart_lp n.isLt]
    · rw [State.lpBoundary_lp, State.lpRestart_lp n.isLt]
  · exact fun h => execLpPeriodBoundary_of_idle h
  · exact fun h => answers_unitAct hu (State.lpEnable_of_stopped n.isLt h)
  · exact fun h => State.next_unitAct_same hu (State.lpEnable_of_not_stopped h)
  · exact answers_unitAct hu (State.lpDisable_stops n.isLt)
  · intro h
    refine answers_unitAct hu ?_
    rw [State.lpArm_of_stopped h]
    exact s.lpTransfer_copies n.val
  · intro h
    refine answers_unitAct hu ?_
    rw [State.lpArm_of_not_stopped h]
    simp [bit]
  -- edge detectors
  · exact fun h => ⟨_, execEdEdge_of_ready hready, State.edFiltered_of_same n.isLt h⟩
  · exact fun hc hfree hroom hlag =>
      ⟨_, execEdEdge_of_ready hready, State.edFiltered_captures n.isLt hc hfree hroom hlag⟩
  · exact fun hc hfree hfull => ⟨_, execEdEdge_of_ready hready, State.edFiltered_overflows n.isLt hc hfree hfull⟩
  · intro t hc hlast h0 hsoon
    obtain ⟨hfifo, hl, hflag, hcount⟩ := State.edFiltered_limited n.isLt hc (State.edLimited_of_soon hlast h0 hsoon)
    exact ⟨_, execEdEdge_of_ready hready, hfifo, hl.trans hlast, hflag, hcount⟩
  · exact fun hu => answers_unitAct hu ⟨s.ed_modEd n.val _ n.isLt, rfl⟩
  -- DALI
  · intro hb ht hf
    refine answers_daliTxGo hrun hgo ?_
    rw [State.daliGo_sends (s := s.daliWritten d) hb ht hf, State.daliWritten_flag _ _ (.inr rfl),
      State.daliWritten_flag _ _ (.inl (by decide)), State.daliWritten_data]
    exact ⟨rfl, rfl, rfl⟩
  · intro hb ht
    refine answers_daliTxGo hrun hgo ?_
    rw [State.daliGo_of_taken (s := s.daliWritten d) hb ht]
    exact ⟨rfl, State.daliResult_shows _ _ (by decide)⟩
  · intro hb ht hf
    obtain ⟨hfield, hflag⟩ := (s.daliWritten d).daliResult_shows 6 (by decide)
    refine answers_daliTxGo hrun hgo ?_
    rw [State.daliGo_of_fault (s := s.daliWritten d) hb ht hf]
    exact ⟨rfl, hfield, hflag, (s.daliWritten d).events_daliResult 6⟩
  · intro hb
    refine answers_daliTxGo hrun hgo ?_
    rw [State.daliGo_of_busy (s := s.daliWritten d) hb]
    rfl
  · exact execDaliFrameEnd_of_early
  · exact fun e hb he => daliFrameEnd_shows hb he
  · exact fun e f hb hf => ⟨_, execDaliFrameEnd_of_sacFrame hb hf, rfl, rfl, rfl⟩

end Sys2Proof.Machine
